-- ==== Sys2Proof/Word.lean ====
section
/-! DEFINITION. The words of the block: host words, bytes, samples, binary32 patterns and the fixed-size
arrays the rules use (spec/00_scope.md R10, R15). The arithmetic stands in Machine/Float.lean. -/

namespace Sys2Proof

/-- A 32-bit word of the host space (R10, R70). -/
abbrev Word := BitVec 32

/-- A byte of a byte-addressed mapping of the word space (R77). -/
abbrev Byte := BitVec 8

/-- `i16`: a signed 16-bit sample (R10). -/
abbrev Sample := BitVec 16

/-- `f32`: a binary32 value, held as its pattern (R10). A structure of its own, so that the integer
operations of bit vectors cannot be applied to it by mistake. -/
structure F32 where
  bits : BitVec 32
deriving DecidableEq, Repr, Inhabited

/-- `c32`: a pair of `f32` (R10). -/
structure C32 where
  re : F32
  im : F32
deriving DecidableEq, Repr, Inhabited

/-- The `f32` zero, the start of every sum (R11). -/
def F32.zero : F32 := ⟨0x00000000#32⟩

/-- The complex zero `(0, 0)`. -/
def C32.zero : C32 := ⟨F32.zero, F32.zero⟩

/-- One `f32` for each of the 65 bins. -/
abbrev Bins := Vector F32 65

/-- A packed spectrum: 65 complex bins (R15). -/
abbrev Spectrum := Vector C32 65

/-- A time-domain buffer of PART_LEN2 = 128 values. -/
abbrev Time := Vector F32 128

/-- Half a time-domain buffer: 64 values. -/
abbrev Half := Vector F32 64

/-- One block of 64 samples. -/
abbrev Block16 := Vector Sample 64

def Bins.zero : Bins := Vector.replicate 65 F32.zero
def Spectrum.zero : Spectrum := Vector.replicate 65 C32.zero
def Time.zero : Time := Vector.replicate 128 F32.zero
def Half.zero : Half := Vector.replicate 64 F32.zero
def Block16.zero : Block16 := Vector.replicate 64 0#16

end Sys2Proof
end

