-- ==== Sys2Proof/Config.lean ====
section
/-! DEFINITION. What is fixed for one block and what the spec leaves open: the constants of
spec/00_scope.md R7, the record of the parameters of R8, the uninterpreted functions of the numerics
record NUM (R16, R17), and the free values. An `opaque` constant has no body: nothing can be proved of its
value, so every theorem holds whatever it is. -/

namespace Sys2Proof

/-- PART_LEN (R7): samples per block. -/
abbrev PART_LEN : Nat := 64
/-- FRAME_LEN (R7): samples per host frame. -/
abbrev FRAME_LEN : Nat := 80
/-- RB_CAP (R7): FRAME_LEN + PART_LEN samples per ring buffer. -/
abbrev RB_CAP : Nat := 144
/-- SUB_COUNT_LEN (R7): blocks per frame level. -/
abbrev SUB_COUNT_LEN : Nat := 4
/-- COUNT_LEN (R7): frame levels per average level. -/
abbrev COUNT_LEN : Nat := 50
/-- NOISE_START (R7). -/
abbrev NOISE_START : Nat := 50
/-- NEW_MIN_PERSIST (R7). -/
abbrev NEW_MIN_PERSIST : Nat := 2

/-- Direction of the overdrive movement that takes the slow blend: the open parameter OD_SLOW_ON (R8;
spec/90_conflicts.md C4). -/
inductive OdSlow where
  | increase
  | decrease
deriving DecidableEq, Repr, Inhabited

/-- BYTE_ORDER of a byte-addressed mapping (spec/20_memory.md R77). -/
inductive ByteOrder where
  | little
  | big
deriving DecidableEq, Repr, Inhabited

/-- A parameter that depends on `mult` (R8). -/
structure PerMult (α : Type) where
  at1 : α
  at2 : α
deriving DecidableEq, Repr, Inhabited

/-- The parameters of R8 and the strap. NR_PART and FAR_BUF_LEN are written so that every record has
`NR_PART ≥ 1` and `FAR_BUF_LEN ≥ FRAME_LEN`, as R8 demands (assumption log 2). The four configuration flags have
the defaults of R9: a record that names none of them is the default build. -/
structure Params where
  /-- NR_PART - 1. -/
  extraParts : Nat
  /-- FAR_BUF_LEN - FRAME_LEN. -/
  extraFar : Nat
  /-- WIN[0..64]. -/
  win : Bins
  /-- WEIGHT_CURVE[0..64]. -/
  weightCurve : Bins
  /-- OVERDRIVE_CURVE[0..64]. -/
  overdriveCurve : Bins
  /-- First coefficient of G_COH(mult). -/
  gCohOld : PerMult F32
  /-- Second coefficient of G_COH(mult). -/
  gCohNew : PerMult F32
  /-- PREF_MIN(mult). -/
  prefMin : PerMult Nat
  /-- PREF_SIZE(mult). -/
  prefSize : PerMult Nat
  thNearDeOn : F32
  thNearXdOn : F32
  thNearDeOff : F32
  thNearXdOff : F32
  thXdMin : F32
  /-- RISE_XD(mult). -/
  riseXd : PerMult F32
  thFbMin : F32
  /-- RISE_FB(mult). -/
  riseFb : PerMult F32
  targetSupp : F32
  odSlowOn : OdSlow
  noiseStep : F32
  dMinPowInit : F32
  sdInit : F32
  sxInit : F32
  sxFloor : F32
  seed0 : BitVec 32
  hbCnEn : Bool
  cnScaleHband : F32
  hbAvgLo : Nat
  hbAvgHi : Nat
  actNoisy : F32
  actClean : F32
  noisyPower : F32
  safety : F32
  levelMinInit : F32
  statInit : F32
  statMinInit : F32
  /-- CFG_UNCONSTR; the default of R9: "not the default". -/
  unconstr : Bool := false
  /-- CFG_ADAPT_EN; on by default (R9). -/
  adaptEn : Bool := true
  /-- CFG_NLP_EN; on by default (R9). -/
  nlpEn : Bool := true
  /-- CFG_CN_EN; on by default (R9). -/
  cnEn : Bool := true
  /-- The strap cfg_simd as sampled at hardware reset (spec/10_state.md R26). -/
  simd : Bool
  /-- BYTE_ORDER (spec/20_memory.md R77). -/
  byteOrder : ByteOrder
deriving DecidableEq, Repr, Inhabited

/-- The four flags stand as in the source's default build (R9). -/
abbrev Params.DefaultBuild (p : Params) : Prop :=
  p.unconstr = false ∧ p.adaptEn = true ∧ p.nlpEn = true ∧ p.cnEn = true

namespace Config

/-- The parameters and straps of the block in hand: any record (R8, spec/93_implementation_defined.md
U17). `State.reset` takes its configuration from here (assumption log 1). -/
opaque params : Params

/-- `log`, natural logarithm, of NUM, before property N5 is built in (R11, R17; log 9). -/
opaque log : F32 → F32
/-- `log10` of NUM (R11, spec/93_implementation_defined.md U8; log 9). -/
opaque log10 : F32 → F32
/-- `pow` of NUM, before property N3 is built in (log 9). -/
opaque pow : F32 → F32 → F32
/-- `cos` of NUM, before property N4 is built in (log 9). -/
opaque cos : F32 → F32
/-- `sin` of NUM, before property N4 is built in (log 9). -/
opaque sin : F32 → F32
/-- The forward transform of NUM, before N1 and N2 are built in (R16; log 10). -/
opaque fwdReal : Time → Spectrum
/-- The inverse transform of NUM, before N1 is built in (R16; log 10). -/
opaque invReal : Spectrum → Time
/-- Number `i` of the `n` numbers RAND draws from a seed; 15 bits, so in [0, 32767]
(spec/43_comfort_noise_output.md R230; log 11). -/
opaque randValue : BitVec 32 → Nat → Nat → BitVec 15
/-- The seed RAND leaves after drawing `n` numbers (R230; log 11). -/
opaque randSeed : BitVec 32 → Nat → BitVec 32

/-- The draw `res_ok` of CREATE and INIT, by draw number (spec/44_frame_api.md R250, R252; log 6). -/
opaque resOk : Nat → Bool
/-- The sample `eSat[t]` that B_ERROR forms from a NaN, by draw number and `t` (R13, R160; log 8). -/
opaque eSatOfNaN : Nat → Nat → Sample
/-- Sign bit and fraction of a NaN pattern that GET_METRICS exports, by draw number and element
(spec/47_numerics_and_access.md R375; log 7). -/
opaque nanPattern : Nat → Nat → BitVec 24
/-- The byte of a window that nothing has written since the hardware reset named by the first argument,
by byte address (spec/10_state.md R51; log 4). -/
opaque unwrittenByte : Nat → Nat → Byte

end Config

end Sys2Proof
end

