-- ==== Sys2Proof/Machine/Float.lean ====
section
/-! DEFINITION. Binary32 arithmetic, round to nearest with ties to even and gradual underflow
(spec/00_scope.md R11, R17 N6; spec/47_numerics_and_access.md R374, R375, R377, R378): each operation is
computed exactly on integers and rounded once. All NaNs are alike, so every operation that gives a NaN gives
the one pattern `F32.nan` (assumption log 7). -/

namespace Sys2Proof

/-! ### The parts of a pattern -/

/-- The sign bit. -/
def F32.sign (a : F32) : Bool := a.bits.getLsbD 31
/-- The biased exponent field. -/
def F32.expField (a : F32) : Nat := (a.bits.extractLsb' 23 8).toNat
/-- The fraction field. -/
def F32.fracField (a : F32) : Nat := (a.bits.extractLsb' 0 23).toNat

def F32.isNaN (a : F32) : Bool := a.expField == 255 && a.fracField != 0
def F32.isInf (a : F32) : Bool := a.expField == 255 && a.fracField == 0
def F32.isFinite (a : F32) : Bool := a.expField != 255
/-- A zero of either sign. -/
def F32.isZero (a : F32) : Bool := a.expField == 0 && a.fracField == 0

/-- Integer significand of a finite value: its magnitude is `sig * 2 ^ expo`. -/
def F32.sig (a : F32) : Nat := if a.expField = 0 then a.fracField else a.fracField + 2 ^ 23
/-- Exponent of the significand's unit. -/
def F32.expo (a : F32) : Int := if a.expField = 0 then -149 else (a.expField : Int) - 150

/-- The one NaN of the model (log 7). -/
def F32.nan : F32 := ⟨0x7FC00000#32⟩
/-- The zero of a sign. -/
def F32.zeroOf (s : Bool) : F32 := if s then ⟨0x80000000#32⟩ else ⟨0x00000000#32⟩
/-- The infinity of a sign. -/
def F32.infOf (s : Bool) : F32 := if s then ⟨0xFF800000#32⟩ else ⟨0x7F800000#32⟩
/-- A pattern from sign, biased exponent and fraction. -/
def F32.pack (s : Bool) (e f : Nat) : F32 :=
  ⟨BitVec.ofBool s ++ BitVec.ofNat 8 e ++ BitVec.ofNat 23 f⟩
/-- A value with its NaN made the one NaN. -/
def F32.canon (a : F32) : F32 := if a.isNaN then F32.nan else a

/-! ### Rounding -/

/-- `m / 2 ^ k` rounded to an integer, nearest, ties to even. -/
def roundShift (m k : Nat) : Nat :=
  let q := m / 2 ^ k
  let r := m % 2 ^ k
  if 2 * r > 2 ^ k ∨ (2 * r = 2 ^ k ∧ q % 2 = 1) then q + 1 else q

/-- The binary32 value nearest to `± m * 2 ^ e` (R374). The unit of the result is the larger of
`2 ^ (e + length of m - 24)` and `2 ^ -149`. -/
def F32.round (s : Bool) (m : Nat) (e : Int) : F32 :=
  if m = 0 then F32.zeroOf s
  else
    let unit : Int := max (e + (m.log2 : Int) - 23) (-149)
    let n := if e < unit then roundShift m (unit - e).toNat else m * 2 ^ (e - unit).toNat
    let (n, unit) := if n = 2 ^ 24 then (2 ^ 23, unit + 1) else (n, unit)
    if n < 2 ^ 23 then F32.pack s 0 n
    else if unit + 150 ≥ 255 then F32.infOf s
    else F32.pack s (unit + 150).toNat (n - 2 ^ 23)

/-- `float(n)`: the binary32 value nearest to an integer (R11, R377). -/
def F32.ofInt (n : Int) : F32 := F32.round (decide (n < 0)) n.natAbs 0

/-- `float` of a sample, exact (R150). -/
def F32.ofSample (v : Sample) : F32 := F32.ofInt v.toInt

/-! ### The operations of N6 -/

/-- Significand with its sign, counted in units of `2 ^ e0` for an `e0` not above the value's own exponent. -/
def F32.scaledInt (a : F32) (e0 : Int) : Int :=
  let m : Int := (a.sig * 2 ^ (a.expo - e0).toNat : Nat)
  if a.sign then -m else m

/-- `a + b`. An exact sum of zero is `+0` unless both operands are `-0`. -/
def F32.add (a b : F32) : F32 :=
  if a.isNaN || b.isNaN then F32.nan
  else if a.isInf then
    if b.isInf && a.sign != b.sign then F32.nan else a
  else if b.isInf then b
  else if a.isZero && b.isZero then F32.zeroOf (a.sign && b.sign)
  else
    let e0 := min a.expo b.expo
    let v := a.scaledInt e0 + b.scaledInt e0
    F32.round (decide (v < 0)) v.natAbs e0

/-- `-a`: the sign changed. -/
def F32.neg (a : F32) : F32 := if a.isNaN then F32.nan else ⟨a.bits ^^^ 0x80000000#32⟩

/-- `a - b`, the sum with the sign of `b` changed. -/
def F32.sub (a b : F32) : F32 := a.add b.neg

/-- `a * b`. -/
def F32.mul (a b : F32) : F32 :=
  let s := a.sign != b.sign
  if a.isNaN || b.isNaN then F32.nan
  else if a.isInf || b.isInf then
    if a.isZero || b.isZero then F32.nan else F32.infOf s
  else F32.round s (a.sig * b.sig) (a.expo + b.expo)

/-- `a / b`. The quotient is taken with 64 further bits and a last bit that tells whether it is inexact. -/
def F32.div (a b : F32) : F32 :=
  let s := a.sign != b.sign
  if a.isNaN || b.isNaN then F32.nan
  else if a.isInf then if b.isInf then F32.nan else F32.infOf s
  else if b.isInf then F32.zeroOf s
  else if b.isZero then if a.isZero then F32.nan else F32.infOf s
  else
    let n := a.sig * 2 ^ 64
    let q := n / b.sig
    F32.round s (2 * q + (if n % b.sig = 0 then 0 else 1)) (a.expo - b.expo - 65)

/-- The greatest `r` with `r * r ≤ n`, for `n < 2 ^ (2 * k)`, one bit at a time. -/
def natSqrtBits (n : Nat) : Nat → Nat → Nat
  | 0, r => r
  | k + 1, r => natSqrtBits n k (if (r + 2 ^ k) * (r + 2 ^ k) ≤ n then r + 2 ^ k else r)

/-- `sqrt(a)`; the root of a negative number is a NaN, of a zero the same zero (R375). -/
def F32.sqrt (a : F32) : F32 :=
  if a.isNaN then F32.nan
  else if a.isZero then a
  else if a.sign then F32.nan
  else if a.isInf then a
  else
    let odd := a.expo % 2 = 1
    let m := (if odd then 2 * a.sig else a.sig) * 2 ^ 60
    let e := if odd then a.expo - 1 else a.expo
    let r := natSqrtBits m 43 0
    F32.round false (2 * r + (if r * r = m then 0 else 1)) (e / 2 - 31)

/-! ### Comparisons: false with a NaN operand; the two zeros are equal (R375) -/

/-- The place of a value that is no NaN in the order of the numbers. -/
def F32.key (a : F32) : Int :=
  let m : Int := (a.bits.extractLsb' 0 31).toNat
  if a.sign then -m else m

def F32.lt (a b : F32) : Bool := !a.isNaN && !b.isNaN && decide (a.key < b.key)
def F32.gt (a b : F32) : Bool := b.lt a
def F32.le (a b : F32) : Bool := !a.isNaN && !b.isNaN && decide (a.key ≤ b.key)
def F32.eq (a b : F32) : Bool := !a.isNaN && !b.isNaN && decide (a.key = b.key)

/-- `min(a, b)`: `a` when `a < b`, else `b` (the head of spec/42_suppressor.md). -/
def F32.min (a b : F32) : F32 := if a.lt b then a else b
/-- `max(a, b)`: `a` when `a > b`, else `b`. -/
def F32.max (a b : F32) : F32 := if a.gt b then a else b

/-! ### Saturating conversion -/

/-- The integer part of a finite value, its fraction discarded (toward zero). -/
def F32.trunc (a : F32) : Int :=
  let m : Nat := if a.expo < 0 then a.sig / 2 ^ (-a.expo).toNat else a.sig * 2 ^ a.expo.toNat
  if a.sign then -(m : Int) else m

/-- `sat16(v)` (R13); no value for a NaN, which its callers treat (spec/60_exceptions.md R318). -/
def sat16 (v : F32) : Option Sample :=
  if v.isNaN then none
  else if (⟨0x46FFFE00#32⟩ : F32).le v then some 0x7FFF#16
  else if v.le ⟨0xC7000000#32⟩ then some 0x8000#16
  else some (BitVec.ofInt 16 v.trunc)

/-! ### Decimal literals: the nearest binary32 values (R378) -/

namespace Lit
def one : F32 := ⟨0x3F800000#32⟩
def c0_9 : F32 := ⟨0x3F666666#32⟩
def c0_1 : F32 := ⟨0x3DCCCCCD#32⟩
def c0_999 : F32 := ⟨0x3F7FBE77#32⟩
def c0_001 : F32 := ⟨0x3A83126F#32⟩
/-- RAMP. -/
def ramp : F32 := ⟨0x3F80068E#32⟩
def c0_6 : F32 := ⟨0x3F19999A#32⟩
def c0_5 : F32 := ⟨0x3F000000#32⟩
def c2e_6 : F32 := ⟨0x360637BD#32⟩
def c1_5e_6 : F32 := ⟨0x35C9539C#32⟩
/-- IFFT_SCALE. -/
def ifftScale : F32 := ⟨0x3C800000#32⟩
/-- DIV_RESET. -/
def divReset : F32 := ⟨0x419F999A#32⟩
def c1_05 : F32 := ⟨0x3F866666#32⟩
def c0_99 : F32 := ⟨0x3F7D70A4#32⟩
def c0_01 : F32 := ⟨0x3C23D70A#32⟩
/-- LEVEL_MIN_RISE. -/
def levelMinRise : F32 := ⟨0x3F8020C5#32⟩
/-- MIN_OVERDRIVE. -/
def minOverdrive : F32 := ⟨0x40000000#32⟩
/-- EPS. -/
def eps : F32 := ⟨0x2EDBE6FF#32⟩
/-- TWO_PI (spec/43_comfort_noise_output.md R232, spec/95_test_vectors.md V-LIT-1). -/
def twoPi : F32 := ⟨0x40C90FDB#32⟩
def c32768 : F32 := ⟨0x47000000#32⟩
def ten : F32 := ⟨0x41200000#32⟩
end Lit

end Sys2Proof
end

