-- ==== Sys2Proof/Machine/Num.lean ====
section
/-! DEFINITION. The functions of the numerics record NUM that the spec leaves uninterpreted, with the
properties N1 to N5 of spec/00_scope.md R17 built in. Each is an opaque constant of Config, corrected only
where its value would break a property, so that it ranges over exactly the functions that have the property
(assumption log 9, 10, 11). -/

namespace Sys2Proof

/-- The value lies in [0, 1]. -/
def F32.inUnit (a : F32) : Bool := F32.zero.le a && a.le Lit.one

namespace Num

/-- `log`: negative between 0 and 1 (N5). -/
def log (x : F32) : F32 :=
  let r := (Config.log x).canon
  if F32.zero.lt x && x.lt Lit.one && !r.lt F32.zero then Lit.one.neg else r

/-- `log10`, without a stated property. -/
def log10 (x : F32) : F32 := (Config.log10 x).canon

/-- `pow`: 1 for base 1 and a finite exponent; in [0, 1] for a base in [0, 1] and a positive exponent; 0, of
either sign, for base 0 and a positive exponent (N3). -/
def pow (x y : F32) : F32 :=
  let r := (Config.pow x y).canon
  if x.eq Lit.one && y.isFinite then Lit.one
  else if x.inUnit && y.gt F32.zero then
    if x.isZero then F32.zeroOf r.sign else if r.inUnit then r else Lit.one
  else r

/-- `cos`: 1 at 0 (N4). -/
def cos (x : F32) : F32 := if x.isZero then Lit.one else (Config.cos x).canon

/-- `sin`: 0, of either sign, at 0 (N4). -/
def sin (x : F32) : F32 :=
  let r := (Config.sin x).canon
  if x.isZero then F32.zeroOf r.sign else r

/-- Every element is a zero of either sign (N1). -/
def timeIsZero (x : Time) : Bool := x.all F32.isZero

/-- Every component is a zero of either sign (N1). -/
def spectrumIsZero (x : Spectrum) : Bool := x.all fun c => c.re.isZero && c.im.isZero

/-- Bins 0 and 64 with the imaginary part `+0` (R15). -/
def realEnds (x : Spectrum) : Spectrum :=
  Vector.ofFn fun k : Fin 65 =>
    if k.val = 0 ∨ k.val = 64 then ⟨x[k].re, F32.zero⟩ else x[k]

/-- `FwdReal` (R16): zero for zero (N1), bins 0 and 64 real (N2, R15). -/
def fwdReal (x : Time) : Spectrum :=
  let z := timeIsZero x
  let r := Config.fwdReal x
  realEnds (Vector.ofFn fun k : Fin 65 =>
    if z then ⟨F32.zeroOf r[k].re.sign, F32.zeroOf r[k].im.sign⟩ else ⟨r[k].re.canon, r[k].im.canon⟩)

/-- `InvReal` (R16): it ignores the imaginary parts of bins 0 and 64 (R15); zero for zero (N1). -/
def invReal (x : Spectrum) : Time :=
  let x := realEnds x
  let z := spectrumIsZero x
  let r := Config.invReal x
  Vector.ofFn fun n : Fin 128 => if z then F32.zeroOf r[n].sign else r[n].canon

/-- Number `i` of the `n` numbers that `RAND(seed, n)` returns, in [0, 32767]
(spec/43_comfort_noise_output.md R230). -/
def rand (seed : BitVec 32) (n i : Nat) : Nat := (Config.randValue seed n i).toNat

/-- The new seed that `RAND(seed, n)` returns (R230). -/
def randSeed (seed : BitVec 32) (n : Nat) : BitVec 32 := Config.randSeed seed n

end Num

end Sys2Proof
end

