-- ==== Sys2Proof/Machine/State.lean ====
section
/-! DEFINITION. The state of the block (spec/10_state.md), its reset (spec/70_reset_and_hazards.md R340) and
the reasons for which a step stops. Plain data throughout. -/

namespace Sys2Proof.Machine

/-- LIFE (R22). -/
inductive Life where
  | off
  | created
  | ready
  | failed
deriving DecidableEq, Repr, Inhabited

/-- A power-level tracker (R45). -/
structure Level where
  sfrsum : F32
  sfrcounter : Nat
  framelevel : F32
  frsum : F32
  frcounter : Nat
  averagelevel : F32
  minlevel : F32
deriving DecidableEq, Repr, Inhabited

/-- A statistics record (R46). -/
structure Stat where
  instant : F32
  average : F32
  min : F32
  max : F32
  himean : F32
  sum : F32
  hisum : F32
  counter : Nat
  hicounter : Nat
deriving DecidableEq, Repr, Inhabited

/-- The fields of the filter (R27 to R47): what CREATE clears and INIT sets. -/
structure Inst where
  sampFreq : BitVec 32
  mult : Nat
  mu : F32
  errThresh : F32
  targetSupp : F32
  minOverDrive : F32
  overDrive : F32
  overDriveSm : F32
  metricsMode : Bool
  farFr : List Sample
  nearFr : List Sample
  outFr : List Sample
  nearFrH : List Sample
  outFrH : List Sample
  farBuf : List Sample
  farBufWritePos : Nat
  farBufReadPos : Nat
  knownDelay : Int
  xBuf : Time
  dBuf : Time
  eBuf : Time
  dBufH : Time
  xfBuf : List Spectrum
  xfBufBlockPos : Nat
  wfBuf : List Spectrum
  xfwBuf : List Spectrum
  xPow : Bins
  dPow : Bins
  dMinPow : Bins
  dInitMinPow : Bins
  noiseEstCtr : Nat
  noiseSel : Bool
  sd : Bins
  se : Bins
  sx : Bins
  sde : Spectrum
  sxd : Spectrum
  outBuf : Half
  divergeState : Bool
  stNearState : Bool
  echoState : Bool
  hNlFbMin : F32
  hNlFbLocalMin : F32
  hNlXdAvgMin : F32
  hNlNewMin : Bool
  hNlMinCtr : Nat
  delayIdx : Nat
  delayEstCtr : Nat
  seed : BitVec 32
  kernelSel : Bool
  farlevel : Level
  nearlevel : Level
  linoutlevel : Level
  nlpoutlevel : Level
  erl : Stat
  erle : Stat
  aNlp : Stat
  rerl : Stat
  stateCounter : Nat
deriving DecidableEq, Repr, Inhabited

/-- The values one stage leaves for later stages of the same command (R50;
spec/40_delay_buffer.md R132): the model's own field, since here a command's stages are steps of their own
(assumption log 12). -/
structure Blk where
  /-- The operand knownDelaySamples of the running PROCESS_FRAME. -/
  d : Int
  farFr80 : Vector Sample 80
  farBl : Block16
  nearBl : Block16
  nearBlH : Block16
  xf : Spectrum
  df : Spectrum
  yf : Spectrum
  ef : Spectrum
  e : Half
  eSat : Block16
  xfw : Spectrum
  dfw : Spectrum
  efw : Spectrum
  sdSum : F32
  seSum : F32
  cohde : Bins
  cohxd : Bins
  hNl : Bins
  hNlDeAvg : F32
  hNlXdAvg : F32
  hNlFb : F32
  hNlFbLow : F32
  cnH : Spectrum
  outBl : Block16
  outBlH : Block16
deriving DecidableEq, Repr, Inhabited

/-- The moves of the outside world (spec/20_memory.md R70 to R80; log 13, 14). -/
inductive HostMove where
  /-- Read the word at a word address. -/
  | read (addr : Nat)
  /-- Write a word at a word address. -/
  | write (addr : Nat) (w : Word)
  /-- A read of `size` bytes at a byte address, on a byte-addressed mapping (R77, R79). -/
  | busRead (addr : Nat) (size : Nat)
  /-- A write of bytes, lowest address first, on a byte-addressed mapping (R77, R79). -/
  | busWrite (addr : Nat) (bytes : List Byte)
  /-- The reset input, taken after `wait` further steps; it samples the strap cfg_simd
  (spec/70_reset_and_hazards.md R340). -/
  | reset (wait : Nat) (simd : Bool)
deriving DecidableEq, Repr, Inhabited

/-- What the last host read returned (the model's own; log 13). -/
inductive HostReply where
  | none
  | word (w : Word)
  | bytes (bs : List Byte)
deriving DecidableEq, Repr, Inhabited

/-- The storage of the windows: (byte address, byte) pairs, addresses strictly rising. An address that is not
listed holds no value (log 4). -/
abbrev Memory := List Host.Cell

/-- The canonical form of a memory: addresses strictly rising. Every listed byte differs from what an
unlisted address holds, since that holds none. -/
abbrev Memory.wf (m : Memory) : Prop := m.Pairwise (fun a b => a.1 < b.1)

end Sys2Proof.Machine

namespace Sys2Proof.Config

/-- The unspecified contents of the filter's fields after a hardware reset, DESTROY, or a failed CREATE or
INIT, by draw number (spec/70_reset_and_hazards.md R341; log 5). -/
opaque freeInst : Nat → Sys2Proof.Machine.Inst

end Sys2Proof.Config

namespace Sys2Proof.Machine

/-- The state of the block. -/
structure State where
  /-- The parameters and straps, constant but for the strap sampled by a hardware reset (R26; log 1). -/
  cfg : Params
  /-- LIFE (R22). -/
  life : Life
  /-- STATUS.FAULT, sticky (R24). -/
  fault : Bool
  /-- STATUS.DONE (R24). -/
  done : Bool
  /-- ERR (R25). -/
  err : Word
  /-- CMD: the command word last written (R23). -/
  cmd : Word
  /-- SEQ (R21); STATUS.BUSY is `seq ≠ 0`. -/
  seq : BitVec 5
  /-- The filter's fields (R27 to R47). -/
  inst : Inst
  /-- The values between stages (R50); the model's own field. -/
  blk : Blk
  /-- The written bytes of the windows (spec/20_memory.md R71). -/
  mem : Memory
  /-- Which hardware reset the unwritten bytes date from; the model's own field (log 4). -/
  memEpoch : Nat
  /-- How many free values have been drawn; the model's own field (log 6). -/
  draws : Nat
  /-- Host moves not yet served; the model's own field (log 13). -/
  hostQ : List HostMove
  /-- What the last host read returned; the model's own field (log 13). -/
  reply : HostReply
deriving DecidableEq, Repr, Inhabited

/-- Why the machine stops with a fault. -/
inductive Fault where
  /-- A host access to a word address of 0x800 or above, which the host space does not have (R70). Raised
  when the host move is served (Machine/Fetch.lean). Safe: the machine stops where the spec names no
  transition (log 16). -/
  | outsideHostSpace (addr : Nat)
deriving DecidableEq, Repr, Inhabited

/-- Why the machine refuses a step. -/
inductive Refusal where
  /-- An instruction without a meaning. Raised by no arm of this model. Safe. -/
  | notModelled (mnemonic : String)
  /-- A ring-buffer write or stuffing beyond RB_CAP (spec/20_memory.md R78,
  spec/93_implementation_defined.md U6: refuse). Raised by F_ENQUEUE, B_PUSH and F_STUFF; in a run
  from reset by the first two, after an ERR_NUMERIC that no INIT follows (log 26). Safe. -/
  | ringOverflow
  /-- A ring-buffer read of more than is held (R78, U6: refuse). Raised by B_POP and F_POP_OUT. Safe. -/
  | ringUnderflow
  /-- An access on a byte-addressed mapping that is not an aligned 32-bit one (R79: refused). Raised when the
  host move is served. Safe. -/
  | unalignedBusAccess
deriving DecidableEq, Repr, Inhabited

/-- All fields of a tracker 0 (R45, after CREATE). -/
def Level.zero : Level := ⟨F32.zero, 0, F32.zero, F32.zero, 0, F32.zero, F32.zero⟩

/-- All fields of a record 0 (R46, after CREATE). -/
def Stat.zero : Stat :=
  ⟨F32.zero, F32.zero, F32.zero, F32.zero, F32.zero, F32.zero, F32.zero, 0, 0⟩

/-- Every field 0, every ring buffer empty: the fields after CREATE (R250). -/
def Inst.zero (p : Params) : Inst where
  sampFreq := 0
  mult := 0
  mu := F32.zero
  errThresh := F32.zero
  targetSupp := F32.zero
  minOverDrive := F32.zero
  overDrive := F32.zero
  overDriveSm := F32.zero
  metricsMode := false
  farFr := []
  nearFr := []
  outFr := []
  nearFrH := []
  outFrH := []
  farBuf := List.replicate (FRAME_LEN + p.extraFar) 0#16
  farBufWritePos := 0
  farBufReadPos := 0
  knownDelay := 0
  xBuf := Time.zero
  dBuf := Time.zero
  eBuf := Time.zero
  dBufH := Time.zero
  xfBuf := List.replicate (p.extraParts + 1) Spectrum.zero
  xfBufBlockPos := 0
  wfBuf := List.replicate (p.extraParts + 1) Spectrum.zero
  xfwBuf := List.replicate (p.extraParts + 1) Spectrum.zero
  xPow := Bins.zero
  dPow := Bins.zero
  dMinPow := Bins.zero
  dInitMinPow := Bins.zero
  noiseEstCtr := 0
  noiseSel := false
  sd := Bins.zero
  se := Bins.zero
  sx := Bins.zero
  sde := Spectrum.zero
  sxd := Spectrum.zero
  outBuf := Half.zero
  divergeState := false
  stNearState := false
  echoState := false
  hNlFbMin := F32.zero
  hNlFbLocalMin := F32.zero
  hNlXdAvgMin := F32.zero
  hNlNewMin := false
  hNlMinCtr := 0
  delayIdx := 0
  delayEstCtr := 0
  seed := 0
  kernelSel := false
  farlevel := Level.zero
  nearlevel := Level.zero
  linoutlevel := Level.zero
  nlpoutlevel := Level.zero
  erl := Stat.zero
  erle := Stat.zero
  aNlp := Stat.zero
  rerl := Stat.zero
  stateCounter := 0

/-- The values between stages while no command has run: all 0 (log 12). -/
def Blk.zero : Blk where
  d := 0
  farFr80 := Vector.replicate 80 0#16
  farBl := Block16.zero
  nearBl := Block16.zero
  nearBlH := Block16.zero
  xf := Spectrum.zero
  df := Spectrum.zero
  yf := Spectrum.zero
  ef := Spectrum.zero
  e := Half.zero
  eSat := Block16.zero
  xfw := Spectrum.zero
  dfw := Spectrum.zero
  efw := Spectrum.zero
  sdSum := F32.zero
  seSum := F32.zero
  cohde := Bins.zero
  cohxd := Bins.zero
  hNl := Bins.zero
  hNlDeAvg := F32.zero
  hNlXdAvg := F32.zero
  hNlFb := F32.zero
  hNlFbLow := F32.zero
  cnH := Spectrum.zero
  outBl := Block16.zero
  outBlH := Block16.zero

/-- The block right after hardware reset (R340): LIFE off, STATUS, ERR and SEQ 0, CONFIG, NRPART and
FARBUFLEN the parameters, the windows unwritten. The filter's fields, which the spec leaves unspecified, are
zero (DESIGN CHOICE, log 3). -/
def State.reset : State where
  cfg := Config.params
  life := .off
  fault := false
  done := false
  err := 0
  cmd := 0
  seq := 0
  inst := Inst.zero Config.params
  blk := Blk.zero
  mem := []
  memEpoch := 0
  draws := 0
  hostQ := []
  reply := .none

end Sys2Proof.Machine
end

