-- ==== Sys2Proof/Machine/Operands.lean ====
section
/-! DEFINITION. The operands of the stages: complex arithmetic and sums (spec/00_scope.md R11, R12), the
rate-dependent constants of R7 and R8, and the index forms of the arrays (spec/20_memory.md R75, R76). -/

namespace Sys2Proof

/-! ### Complex arithmetic (R12) -/

def C32.add (a b : C32) : C32 := ⟨a.re.add b.re, a.im.add b.im⟩
def C32.mul (a b : C32) : C32 :=
  ⟨(a.re.mul b.re).sub (a.im.mul b.im), (a.re.mul b.im).add (a.im.mul b.re)⟩
def C32.conj (a : C32) : C32 := ⟨a.re, a.im.neg⟩
def C32.scale (s : F32) (a : C32) : C32 := ⟨s.mul a.re, s.mul a.im⟩
def C32.mag2 (a : C32) : F32 := (a.re.mul a.re).add (a.im.mul a.im)

/-- `SUM_{k = lo .. lo+n-1} f k`: the left fold from zero in ascending order (R11). -/
def sumRange (lo n : Nat) (f : Nat → F32) : F32 :=
  (List.range n).foldl (fun acc i => acc.add (f (lo + i))) F32.zero

/-! ### Arrays -/

/-- Element `k` of a bin array. The index is a bin number below 65 in every use with legal parameters. -/
def Bins.at (v : Bins) (k : Nat) : F32 := v.toList.getD k F32.zero
/-- Element `k` of a spectrum. -/
def Spectrum.at (v : Spectrum) (k : Nat) : C32 := v.toList.getD k C32.zero
/-- Slot `p` of a bank of spectra. -/
def bankAt (b : List Spectrum) (p : Nat) : Spectrum := b.getD p Spectrum.zero

/-- The first 64 samples of a list as a block. -/
def blockOf (l : List Sample) : Block16 := Vector.ofFn fun i : Fin 64 => l.getD i.val 0#16

/-- `A[n]` of the old half of a history buffer (spec/10_state.md R32). -/
def oldHalf (x : Time) (n : Fin 64) : F32 := x[n.val]
/-- `A[64 + n]`, of its new half. -/
def newHalf (x : Time) (n : Fin 64) : F32 := x[64 + n.val]
/-- A history buffer from its halves. -/
def joinHalves (old new : Fin 64 → F32) : Time :=
  Vector.ofFn fun n : Fin 128 =>
    if h : n.val < 64 then old ⟨n.val, h⟩ else new ⟨n.val - 64, by omega⟩
/-- `WIN[n]`, the rising half of the window. -/
def winUp (w : Bins) (n : Fin 64) : F32 := w[n.val]
/-- `WIN[64 - n]`, the falling half. -/
def winDown (w : Bins) (n : Fin 64) : F32 := w[64 - n.val]

/-! ### Parameters and rate-dependent constants -/

/-- NR_PART, at least 1 (R8). -/
def Params.nrPart (p : Params) : Nat := p.extraParts + 1
/-- FAR_BUF_LEN, at least FRAME_LEN (R8). -/
def Params.farBufLen (p : Params) : Nat := FRAME_LEN + p.extraFar

/-- A parameter at `mult`. -/
def PerMult.get {α : Type} (x : PerMult α) (mult : Nat) : α := if mult = 1 then x.at1 else x.at2

/-- `mult` of a rate: 1 at 8000 Hz, 2 otherwise (spec/10_state.md R27). -/
def multOf (rate : Nat) : Nat := if rate = 8000 then 1 else 2
/-- MU(rate) (R7). -/
def muOf (rate : Nat) : F32 := if rate = 8000 then Lit.c0_6 else Lit.c0_5
/-- ERR_THRESH(rate) (R7). -/
def errThreshOf (rate : Nat) : F32 := if rate = 8000 then Lit.c2e_6 else Lit.c1_5e_6
/-- NOISE_INIT_BLOCKS(mult) (R7). -/
def noiseInitBlocks (mult : Nat) : Nat := 500 * mult
/-- DELAY_EST_INTERVAL(mult) (R7). -/
def delayEstInterval (mult : Nat) : Nat := 10 * mult

namespace Machine

/-- The 32000 Hz instance has a high band (spec/44_frame_api.md R257). -/
def Inst.highBand (x : Inst) : Bool := decide (x.sampFreq = 32000#32)

/-- `noisePow[k]`: `dInitMinPow` while noiseSel is 0, else `dMinPow` (spec/10_state.md R37). -/
def Inst.noisePow (x : Inst) : Bins := if x.noiseSel then x.dMinPow else x.dInitMinPow

end Machine

end Sys2Proof
end

