-- ==== Sys2Proof/Machine/Flags.lean ====
section
/-! DEFINITION. The flags: the fields of STATUS, ERR and CONFIG (spec/10_state.md R24 to R26), the fault codes
(spec/60_exceptions.md R311) and the rules that set the flags of the suppressor (R40). -/

namespace Sys2Proof.Machine

/-- The faults of R311. -/
inductive FaultCode where
  | opcode
  | encoding
  | state
  | badRate
  | cfgUnsupported
  | resource
  | nullHighband
  | numeric
deriving DecidableEq, Repr, Inhabited

/-- The code that ERR[7:0] records (R311). -/
def FaultCode.bits : FaultCode → BitVec 8
  | .opcode => 1
  | .encoding => 2
  | .state => 3
  | .badRate => 4
  | .cfgUnsupported => 5
  | .resource => 6
  | .nullHighband => 7
  | .numeric => 8

/-- The encoding of LIFE (R22). -/
def Life.bits : Life → BitVec 2
  | .off => 0
  | .created => 1
  | .ready => 2
  | .failed => 3

/-- The filter exists: its fields are not unspecified (R24). -/
def Life.exists : Life → Bool
  | .created | .ready => true
  | .off | .failed => false

/-- The ERR word of a fault of a command word (R25, R311): `w[31:8]` over the code. -/
def errWord (w : Word) (c : FaultCode) : Word := w.extractLsb' 8 24 ++ c.bits

/-- STATUS (R24): bits 6 DONE, 5 KSEL, 4 METRICS_EN, 3 FAULT, 2 BUSY, 1:0 LIFE. -/
def State.statusWord (s : State) : Word :=
  0#25 ++ BitVec.ofBool s.done ++ BitVec.ofBool (s.life.exists && s.inst.kernelSel)
    ++ BitVec.ofBool (s.life.exists && s.inst.metricsMode) ++ BitVec.ofBool s.fault
    ++ BitVec.ofBool (s.seq != 0) ++ s.life.bits

/-- CONFIG (R26): bits 5 SIMD, 4 HB_CN_EN, 3 CN_EN, 2 NLP_EN, 1 ADAPT_EN, 0 UNCONSTR. -/
def configWord (p : Params) : Word :=
  0#26 ++ BitVec.ofBool p.simd ++ BitVec.ofBool p.hbCnEn ++ BitVec.ofBool p.cnEn
    ++ BitVec.ofBool p.nlpEn ++ BitVec.ofBool p.adaptEn ++ BitVec.ofBool p.unconstr

/-- The divergence flag after a block (spec/41_adaptive_filter.md R174). -/
def divergeFlag (flag : Bool) (sdSum seSum : F32) : Bool :=
  if flag then !((seSum.mul Lit.c1_05).lt sdSum) else seSum.gt sdSum

/-- The hard reset of the weights is due (R176). -/
def hardResetDue (sdSum seSum : F32) : Bool := seSum.gt (Lit.divReset.mul sdSum)

/-- The strong-near-end flag after a block (spec/42_suppressor.md R204). -/
def nearFlag (p : Params) (flag : Bool) (deAvg xdAvg : F32) : Bool :=
  if deAvg.gt p.thNearDeOn && xdAvg.gt p.thNearXdOn then true
  else if deAvg.lt p.thNearDeOff || xdAvg.lt p.thNearXdOff then false
  else flag

/-- The three gain candidates of R206. -/
inductive GainMode where
  | de
  | xd
  | min
deriving DecidableEq, Repr, Inhabited

/-- The gain mode of a block (R206 (a)). -/
def gainMode (noEcho near : Bool) : GainMode :=
  if noEcho then (if near then .de else .xd) else if near then .de else .min

/-- The echo-present flag of a block (R206 (a)): set in mode MIN only. -/
def echoFlag (m : GainMode) : Bool := decide (m = .min)

end Sys2Proof.Machine
end

