-- ==== Sys2Proof/Machine/Ops.lean ====
section
/-! DEFINITION. The named operations over the windows, the ring buffers and the registers that the meanings
share, and taking a fault (spec/20_memory.md R70 to R79; spec/60_exceptions.md R312). -/

namespace Sys2Proof.Machine

/-! ### Bytes of the windows -/

/-- The byte listed at an address. -/
def Memory.read : Memory → Nat → Option Byte
  | [], _ => none
  | (k, v) :: t, a => if k = a then some v else Memory.read t a

/-- Lists a byte at an address, in its place. -/
def Memory.write : Memory → Nat → Byte → Memory
  | [], a, b => [(a, b)]
  | (k, v) :: t, a, b =>
    if a < k then (a, b) :: (k, v) :: t
    else if a = k then (a, b) :: t
    else (k, v) :: Memory.write t a b

/-- Writes bytes at consecutive addresses. -/
def Memory.writeBytes : Memory → Nat → List Byte → Memory
  | m, _, [] => m
  | m, a, b :: bs => Memory.writeBytes (Memory.write m a b) (a + 1) bs

/-- Writes the elements of a window from word address `a` upward, each given as its bytes. -/
def Memory.writeElems : Memory → Nat → List (List Byte) → Memory
  | m, _, [] => m
  | m, a, e :: es => Memory.writeElems (Memory.writeBytes m (4 * a) e) (a + 1) es

/-- The byte at a byte address: the one written, or the free value of an unwritten byte (R51; log 4). -/
def State.byteAt (s : State) (a : Nat) : Byte :=
  (s.mem.read a).getD (Config.unwrittenByte s.memEpoch a)

/-- The 32-bit word at a word address: byte 0 is bits 7:0 (R77). -/
def State.wordAt (s : State) (a : Nat) : Word :=
  s.byteAt (4 * a + 3) ++ s.byteAt (4 * a + 2) ++ s.byteAt (4 * a + 1) ++ s.byteAt (4 * a)

/-- The bytes of an `i16` element: bits 15:0 of its word (R72). -/
def sampleBytes (v : Sample) : List Byte := [v.extractLsb' 0 8, v.extractLsb' 8 8]

/-- The bytes of a 32-bit word, byte 0 first. -/
def wordBytes (w : Word) : List Byte :=
  [w.extractLsb' 0 8, w.extractLsb' 8 8, w.extractLsb' 16 8, w.extractLsb' 24 8]

/-! ### Windows (R71, R72) -/

/-- The windows of the host space. -/
inductive Win where
  | farIn
  | nearIn
  | nearHIn
  | out
  | outH
  | metrics
deriving DecidableEq, Repr, Inhabited

/-- Word address of element 0 (R71). -/
def Win.base : Win → Nat
  | .farIn => 0x100
  | .nearIn => 0x200
  | .nearHIn => 0x300
  | .out => 0x400
  | .outH => 0x500
  | .metrics => 0x600

/-- Number of elements (R71). -/
def Win.size : Win → Nat
  | .metrics => 20
  | _ => 80

/-- The host may write the window (R71). -/
def Win.hostWritable : Win → Bool
  | .farIn | .nearIn | .nearHIn => true
  | .out | .outH | .metrics => false

/-- A word address lies in a window. -/
def Win.holds (w : Win) (a : Nat) : Bool := decide (w.base ≤ a ∧ a < w.base + w.size)

/-- The window a word address lies in. -/
def winOf (a : Nat) : Option Win :=
  [Win.farIn, .nearIn, .nearHIn, .out, .outH, .metrics].find? (·.holds a)

/-- `WinRead(W, i)` of a sample window (R72). -/
def State.winRead (s : State) (w : Win) (i : Nat) : Sample :=
  s.byteAt (4 * (w.base + i) + 1) ++ s.byteAt (4 * (w.base + i))

/-- `WinWrite(W, t, v[t])` for every sample of a frame (R72). -/
def Memory.writeFrame (m : Memory) (w : Win) (vs : List Sample) : Memory :=
  m.writeElems w.base (vs.map sampleBytes)

/-! ### Ring buffers (R78); a violated precondition has no result (log 17) -/

/-- `RbFill(q)`. -/
def rbFill (q : List Sample) : Nat := q.length

/-- `RbWrite(q, v)`. -/
def rbWrite (q vs : List Sample) : Option (List Sample) :=
  if rbFill q + vs.length ≤ RB_CAP then some (q ++ vs) else none

/-- `RbRead(q, n)`: what is read, and what stays. -/
def rbRead (q : List Sample) (n : Nat) : Option (List Sample × List Sample) :=
  if n ≤ rbFill q then some (q.take n, q.drop n) else none

/-- `RbStuff(q, n)`: zeros at the read end. -/
def rbStuff (q : List Sample) (n : Nat) : Option (List Sample) :=
  if rbFill q + n ≤ RB_CAP then some (List.replicate n 0#16 ++ q) else none

/-- An operation that is done only under a condition (the rate has a high band; there is something to
stuff), and what stands where it is not done. -/
def doneIf {α : Type} (cond : Bool) (dflt : α) (r : Option α) : Option α :=
  if cond then r else some dflt

/-! ### Updates of single fields -/

def State.setInst (s : State) (x : Inst) : State := { s with inst := x }
def State.setBlk (s : State) (b : Blk) : State := { s with blk := b }
def State.setSeq (s : State) (n : BitVec 5) : State := { s with seq := n }
def State.setLife (s : State) (l : Life) : State := { s with life := l }
def State.setMem (s : State) (m : Memory) : State := { s with mem := m }
/-- The next free value will be another one. -/
def State.drawn (s : State) : State := { s with draws := s.draws + 1 }

/-! ### Faults and the end of a command -/

/-- `raise <code>` (R312): the command ends, FAULT is set, ERR keeps the first fault, DONE is 0, SEQ is 0. No
state is saved elsewhere and control goes nowhere (R322). -/
def raise (c : FaultCode) (s : State) : State :=
  { s with
    err := if s.fault then s.err else errWord s.cmd c
    fault := true
    done := false
    seq := 0 }

/-- A command ends without a fault: DONE is 1 and no command runs (R24). There is no return from a fault: the
next command simply starts from SEQ 0 (R324). -/
def complete (s : State) : State := { s with done := true, seq := 0 }

/-- The filter's fields become unspecified (spec/70_reset_and_hazards.md R341; log 5). -/
def State.loseInst (s : State) : State :=
  { s with inst := Config.freeInst s.draws, draws := s.draws + 1 }

/-- CREATE or INIT fails: LIFE is FAILED, the fields are unspecified, the fault is raised
(spec/44_frame_api.md R250, R252). -/
def failLife (c : FaultCode) (s : State) : State := raise c (s.setLife .failed).loseInst

/-- Hardware reset (spec/70_reset_and_hazards.md R340): LIFE, STATUS, ERR and SEQ as R340 says, the strap
sampled, the fields and the windows unspecified. -/
def hardwareReset (simd : Bool) (s : State) : State :=
  { s with
    cfg := { s.cfg with simd := simd }
    life := .off
    fault := false
    done := false
    err := 0
    cmd := 0
    seq := 0
    inst := Config.freeInst s.draws
    mem := []
    memEpoch := s.draws + 1
    draws := s.draws + 1 }

/-! ### The host's view (spec/10_state.md R23; R71) -/

/-- The word a host read returns (R23, R71, R72): a sample sign-extended, a METRICS pattern as it is, 0 at a
reserved address. -/
def State.hostWord (s : State) (a : Nat) : Word :=
  if a = 1 then s.statusWord
  else if a = 2 then s.err
  else if a = 3 then configWord s.cfg
  else if a = 4 then s.inst.sampFreq
  else if a = 5 then BitVec.ofNat 32 s.cfg.nrPart
  else if a = 6 then BitVec.ofNat 32 s.cfg.farBufLen
  else
    match winOf a with
    | none => 0
    | some .metrics => s.wordAt a
    | some w => (s.winRead w (a - w.base)).signExtend 32

/-- A host write to an address other than CMD (R23, R71, R72): an input window stores bits 15:0, anything else
ignores it. -/
def State.hostStore (s : State) (a : Nat) (w : Word) : State :=
  match winOf a with
  | none => s
  | some win =>
    if win.hostWritable then s.setMem (s.mem.writeBytes (4 * a) (sampleBytes (w.extractLsb' 0 16))) else s

end Sys2Proof.Machine
end

