-- ==== Sys2Proof/Machine/Filter.lean ====
section
/-! DEFINITION. The stages of the partitioned-block adaptive filter (spec/41_adaptive_filter.md). `kernelSel`
is read by none of them: both kernels have the one semantics (R178; spec/47_numerics_and_access.md R380). -/

namespace Sys2Proof.Machine

/-- A history buffer with a new half (spec/10_state.md R32). -/
def setNewHalf (x : Time) (new : Fin 64 → F32) : Time := joinHalves (oldHalf x) new

/-- B_LOAD (R150). -/
def execBLoad (s : State) : Host.Outcome State Fault Refusal :=
  .next { s with
    inst := { s.inst with
      xBuf := setNewHalf s.inst.xBuf fun t => F32.ofSample s.blk.farBl[t]
      dBuf := setNewHalf s.inst.dBuf fun t => F32.ofSample s.blk.nearBl[t]
      dBufH :=
        if s.inst.highBand then setNewHalf s.inst.dBufH fun t => F32.ofSample s.blk.nearBlH[t]
        else s.inst.dBufH }
    seq := 7 }

/-- B_XFORM (R152). -/
def execBXform (s : State) : Host.Outcome State Fault Refusal :=
  .next { s with
    blk := { s.blk with xf := Num.fwdReal s.inst.xBuf, df := Num.fwdReal s.inst.dBuf }
    seq := 8 }

/-! ### B_POW (R154) -/

/-- A smoothed power: `0.9 * old + scale * |x|^2`. -/
def smoothPow (old scale : F32) (x : C32) : F32 := (Lit.c0_9.mul old).add (scale.mul x.mag2)

/-- B_POW (R154); the far power carries the factor `(0.1 * float(NR_PART))`. -/
def execBPow (s : State) : Host.Outcome State Fault Refusal :=
  let farScale := Lit.c0_1.mul (F32.ofInt s.cfg.nrPart)
  .next { s with
    inst := { s.inst with
      xPow := Vector.ofFn fun k : Fin 65 => smoothPow s.inst.xPow[k] farScale s.blk.xf[k]
      dPow := Vector.ofFn fun k : Fin 65 => smoothPow s.inst.dPow[k] Lit.c0_1 s.blk.df[k] }
    seq := 9 }

/-! ### B_NOISE (R155, R156) -/

/-- The decaying minimum of one bin (R155): a step of NOISE_STEP toward a lower power, then the ramp. -/
def trackMin (noiseStep dPow dMin : F32) : F32 :=
  if dPow.lt dMin then (dPow.add (noiseStep.mul (dMin.sub dPow))).mul Lit.ramp
  else dMin.mul Lit.ramp

/-- The start-up minimum of one bin (R156). -/
def blendInit (dMin dInit : F32) : F32 :=
  if dMin.gt dInit then (Lit.c0_999.mul dInit).add (Lit.c0_001.mul dMin) else dMin

/-- B_NOISE: first the minimum, gated by the counter before its increment (R155), then the start-up ramp and
the choice of the noise power (R156). -/
def execBNoise (s : State) : Host.Outcome State Fault Refusal :=
  let x := s.inst
  let dMin : Bins :=
    if x.noiseEstCtr > NOISE_START then
      Vector.ofFn fun k : Fin 65 => trackMin s.cfg.noiseStep x.dPow[k] x.dMinPow[k]
    else x.dMinPow
  .next { s with
    inst :=
      if x.noiseEstCtr < noiseInitBlocks x.mult then
        { x with
          dMinPow := dMin
          noiseEstCtr := x.noiseEstCtr + 1
          dInitMinPow := Vector.ofFn fun k : Fin 65 => blendInit dMin[k] x.dInitMinPow[k]
          noiseSel := false }
      else { x with dMinPow := dMin, noiseSel := true }
    seq := 10 }

/-! ### B_FILTER (R158, R159) -/

/-- `(pos - 1) mod NR_PART` (R158). -/
def rotateBack (n pos : Nat) : Nat := (((pos : Int) - 1) % (n : Int)).toNat

/-- Slot of the far-end spectrum from `i` blocks earlier (R159). -/
def slotOf (n pos i : Nat) : Nat := (i + pos) % n

/-- `Y[k] = SUM_i X_i[k] * W_i[k]`, partition 0 first (R159). -/
def echoBin (n pos : Nat) (xfBuf wfBuf : List Spectrum) (k : Fin 65) : C32 :=
  (List.range n).foldl
    (fun acc i => acc.add ((bankAt xfBuf (slotOf n pos i))[k].mul (bankAt wfBuf i)[k])) C32.zero

/-- B_FILTER: rotate, store, and the echo-estimate spectrum (R158, R159). -/
def execBFilter (s : State) : Host.Outcome State Fault Refusal :=
  let n := s.cfg.nrPart
  let pos := rotateBack n s.inst.xfBufBlockPos
  let xfBuf := s.inst.xfBuf.set pos s.blk.xf
  .next { s with
    inst := { s.inst with xfBufBlockPos := pos, xfBuf := xfBuf }
    blk := { s.blk with yf := Vector.ofFn fun k : Fin 65 => echoBin n pos xfBuf s.inst.wfBuf k }
    seq := 11 }

/-! ### B_ERROR and B_ERR_XFORM (R160, R162) -/

/-- The error samples: near end less echo estimate, which is the second half of the inverse transform
(R160). -/
def errorBlock (yf : Spectrum) (dBuf : Time) : Half :=
  let v := Num.invReal yf
  Vector.ofFn fun t : Fin 64 => (newHalf dBuf t).sub ((newHalf v t).mul Lit.ifftScale)

/-- `eSat[t]`: the error saturated, for the metrics; of a NaN a free sample, since this stage raises no fault
(R13, R160; log 8). -/
def errorSample (draw : Nat) (t : Nat) (e : F32) : Sample := (sat16 e).getD (Config.eSatOfNaN draw t)

/-- B_ERROR (R160). -/
def execBError (s : State) : Host.Outcome State Fault Refusal :=
  let e := errorBlock s.blk.yf s.inst.dBuf
  .next { s with
    inst := { s.inst with eBuf := setNewHalf s.inst.eBuf fun t => e[t] }
    blk := { s.blk with
      e := e
      eSat := Vector.ofFn fun t : Fin 64 => errorSample s.draws t e[t] }
    draws := s.draws + 1
    seq := 12 }

/-- B_ERR_XFORM (R162): the error block after 64 zeros. -/
def execBErrXform (s : State) : Host.Outcome State Fault Refusal :=
  .next { s with
    blk := { s.blk with
      ef := Num.fwdReal (joinHalves (fun _ => F32.zero) fun t => s.blk.e[t]) }
    seq := 13 }

/-! ### B_SCALE (R164) -/

/-- One bin of ScaleErrorSignal: normalise, clamp the magnitude, multiply by the step size. -/
def scaleBin (mu errThresh xPow : F32) (ef : C32) : C32 :=
  let n := xPow.add Lit.eps
  let q : C32 := ⟨ef.re.div n, ef.im.div n⟩
  let a := q.mag2.sqrt
  let c := if a.gt errThresh then q.scale (errThresh.div a) else q
  c.scale mu

/-- B_SCALE (R164). -/
def execBScale (s : State) : Host.Outcome State Fault Refusal :=
  .next { s with
    blk := { s.blk with
      ef := Vector.ofFn fun k : Fin 65 =>
        scaleBin s.inst.mu s.inst.errThresh s.inst.xPow[k] s.blk.ef[k] }
    seq := 14 }

/-! ### B_ADAPT (R166, R168, R170) -/

/-- The cross term `conj(X_i) * E` of a partition. -/
def crossTerm (x ef : Spectrum) : Spectrum := Vector.ofFn fun k : Fin 65 => x[k].conj.mul ef[k]

/-- The constrained update: inverse transform, upper half zeroed, forward transform (R168). -/
def constrain (g : Spectrum) : Spectrum :=
  let t := Num.invReal g
  Num.fwdReal (joinHalves (fun n => (oldHalf t n).mul Lit.ifftScale) fun _ => F32.zero)

/-- The spectrum added to a partition's weights: constrained (R168), or the cross term itself (R170). -/
def adaptStep (unconstr : Bool) (x ef : Spectrum) : Spectrum :=
  if unconstr then crossTerm x ef else constrain (crossTerm x ef)

/-- Sum of two spectra, bin by bin. -/
def addSpectra (a b : Spectrum) : Spectrum := Vector.ofFn fun k : Fin 65 => a[k].add b[k]

/-- The weight bank after the update of every partition (R168, R170). -/
def adaptBank (p : Params) (x : Inst) (ef : Spectrum) : List Spectrum :=
  x.wfBuf.mapIdx fun i w =>
    addSpectra w (adaptStep p.unconstr (bankAt x.xfBuf (slotOf p.nrPart x.xfBufBlockPos i)) ef)

/-- B_ADAPT (R166): the update, or nothing where adaptation is disabled. -/
def execBAdapt (s : State) : Host.Outcome State Fault Refusal :=
  .next { s with
    inst := { s.inst with
      wfBuf := if s.cfg.adaptEn then adaptBank s.cfg s.inst s.blk.ef else s.inst.wfBuf }
    seq := 15 }

/-! ### N_DIVERGE (R174, spec/42_suppressor.md R195, R176) -/

/-- N_DIVERGE: the flag (R174), the substitution it controls (R195), the hard reset of the weights (R176). -/
def execNDiverge (s : State) : Host.Outcome State Fault Refusal :=
  let flag := divergeFlag s.inst.divergeState s.blk.sdSum s.blk.seSum
  .next { s with
    inst := { s.inst with
      divergeState := flag
      wfBuf :=
        if hardResetDue s.blk.sdSum s.blk.seSum then s.inst.wfBuf.map fun _ => Spectrum.zero
        else s.inst.wfBuf }
    blk := { s.blk with efw := if flag then s.blk.dfw else s.blk.efw }
    seq := 19 }

end Sys2Proof.Machine
end

