-- ==== Sys2Proof/Machine/Comfort.lean ====
section
/-! DEFINITION. Comfort noise, output synthesis, the high band and the shift of the histories
(spec/43_comfort_noise_output.md). -/

namespace Sys2Proof.Machine

/-! ### N_COMFORT (R232, R236) -/

/-- The phase of bin `k` (1 to 64), from number `k - 1` of the 64 drawn (R232). -/
def phase (seed : BitVec 32) (k : Nat) : F32 :=
  Lit.twoPi.mul ((F32.ofInt (Num.rand seed 64 (k - 1))).div Lit.c32768)

/-- A noise spectrum bin of level `nz`, under a weight: bin 0 has none, bin 64 a real one (R232, R236). -/
def noiseBin (seed : BitVec 32) (k : Nat) (scale : F32 → F32) (nz : F32) : C32 :=
  if k = 0 then C32.zero
  else
    ⟨scale (nz.mul (Num.cos (phase seed k))),
      if k = 64 then F32.zero else scale ((F32.zero.sub nz).mul (Num.sin (phase seed k)))⟩

/-- `sqrt(max(1 - hNl^2, 0))`: more noise where more was suppressed (R232). -/
def noiseWeight (h : F32) : F32 := ((Lit.one.sub (h.mul h)).max F32.zero).sqrt

/-- A bin of the suppressed error spectrum with its comfort noise (R232). -/
def addNoise (seed : BitVec 32) (k : Nat) (noisePow h : F32) (ef : C32) : C32 :=
  let u := noiseBin seed k (fun v => v) noisePow.sqrt
  let w := noiseWeight h
  ⟨ef.re.add (w.mul u.re), ef.im.add (w.mul u.im)⟩

/-- Mean over the bins HB_AVG_LO to HB_AVG_HI (R236, R242). -/
def highBandMean (p : Params) (f : Nat → F32) : F32 :=
  let m := p.hbAvgHi + 1 - p.hbAvgLo
  (sumRange p.hbAvgLo m f).div (F32.ofInt m)

/-- The high band's comfort-noise spectrum: one noise level and one weight, the low band's phases (R236). -/
def highBandNoise (p : Params) (x : Inst) (hNl : Bins) : Spectrum :=
  let noiseAvg := highBandMean p fun k => (x.noisePow.at k).sqrt
  let wAvg := highBandMean p fun k => noiseWeight (hNl.at k)
  Vector.ofFn fun k : Fin 65 => noiseBin x.seed k (wAvg.mul ·) noiseAvg

/-- The high band gets comfort noise (R236, R242). -/
def highNoiseOn (p : Params) : Bool := p.cnEn && p.hbCnEn

/-- N_COMFORT (R232, R236). With comfort noise disabled nothing is drawn and nothing added. -/
def execNComfort (s : State) : Host.Outcome State Fault Refusal :=
  let x := s.inst
  .next { s with
    blk := { s.blk with
      efw :=
        if s.cfg.cnEn then
          Vector.ofFn fun k : Fin 65 => addNoise x.seed k x.noisePow[k] s.blk.hNl[k] s.blk.efw[k]
        else s.blk.efw
      cnH :=
        if x.highBand && highNoiseOn s.cfg then highBandNoise s.cfg x s.blk.hNl else Spectrum.zero }
    inst := { x with seed := if s.cfg.cnEn then Num.randSeed x.seed 64 else x.seed }
    seq := 25 }

/-! ### Saturation of an output block (spec/60_exceptions.md R318) -/

/-- Index of the first NaN of a block, 64 if there is none. -/
def firstNaN (o : Half) : Nat := o.toList.findIdx F32.isNaN

/-- The block saturated; used where it holds no NaN. -/
def saturated (o : Half) : Block16 := Vector.ofFn fun n : Fin 64 => (sat16 o[n]).getD 0#16

/-! ### N_SYNTH (R240) -/

/-- The values to be saturated: the first half of the inverse transform under the rising window, on the saved
tail. -/
def synthBlock (win : Bins) (v : Time) (outBuf : Half) : Half :=
  Vector.ofFn fun n : Fin 64 =>
    (((oldHalf v n).mul Lit.ifftScale).mul (winUp win n)).add outBuf[n]

/-- The tail saved for the next block: the second half under the falling window. -/
def synthTail (win : Bins) (v : Time) : Half :=
  Vector.ofFn fun n : Fin 64 => ((newHalf v n).mul Lit.ifftScale).mul (winDown win n)

/-- N_SYNTH (R240). A NaN at element `n` ends the command there with ERR_NUMERIC: the tail elements below `n`
are already written and stay (R312 (1), R318; log 18). -/
def execNSynth (s : State) : Host.Outcome State Fault Refusal :=
  let v := Num.invReal s.blk.efw
  let o := synthBlock s.cfg.win v s.inst.outBuf
  let tail := synthTail s.cfg.win v
  let stop := firstNaN o
  let s1 := s.setInst { s.inst with
    outBuf := Vector.ofFn fun n : Fin 64 => if n.val < stop then tail[n] else s.inst.outBuf[n] }
  .next (
    if stop < 64 then raise .numeric s1
    else { s1 with blk := { s.blk with outBl := saturated o }, seq := 26 })

/-! ### N_HIGHBAND (R242) -/

/-- The high-band values to be saturated: the previous block's samples under the mean gain, with their comfort
noise where it is enabled. -/
def highBandBlock (p : Params) (x : Inst) (b : Blk) : Half :=
  let gain := highBandMean p b.hNl.at
  let vh := Num.invReal b.cnH
  Vector.ofFn fun n : Fin 64 =>
    let t := (oldHalf x.dBufH n).mul gain
    if highNoiseOn p then t.add (p.cnScaleHband.mul ((oldHalf vh n).mul Lit.ifftScale)) else t

/-- N_HIGHBAND (R242): nothing below 32000 Hz; a NaN ends the command with ERR_NUMERIC (R318). -/
def execNHighband (s : State) : Host.Outcome State Fault Refusal :=
  let o := highBandBlock s.cfg s.inst s.blk
  .next (
    if s.inst.highBand then
      if firstNaN o < 64 then raise .numeric s
      else { s with blk := { s.blk with outBlH := saturated o }, seq := 27 }
    else { s with seq := 27 })

/-! ### N_SHIFT (R244) -/

/-- The new half becomes the old half; the new half keeps its values. -/
def shiftHalves (x : Time) : Time := joinHalves (newHalf x) (newHalf x)

/-- Every slot takes its predecessor's spectrum, the first keeps its own. -/
def ageBank : List Spectrum → List Spectrum
  | [] => []
  | x :: t => x :: (x :: t).dropLast

/-- N_SHIFT (R244). -/
def execNShift (s : State) : Host.Outcome State Fault Refusal :=
  .next { s with
    inst := { s.inst with
      xBuf := shiftHalves s.inst.xBuf
      dBuf := shiftHalves s.inst.dBuf
      eBuf := shiftHalves s.inst.eBuf
      dBufH := if s.inst.highBand then shiftHalves s.inst.dBufH else s.inst.dBufH
      xfwBuf := ageBank s.inst.xfwBuf }
    seq := 28 }

end Sys2Proof.Machine
end

