-- ==== Sys2Proof/Machine/Delay.lean ====
section
/-! DEFINITION. The stages of the far-end delay buffer (spec/40_delay_buffer.md). -/

namespace Sys2Proof.Machine

/-- The delay buffer with samples written from a cursor upward, positions modulo `n` (R130;
spec/20_memory.md R76). -/
def circWrite (n : Nat) : List Sample → Nat → List Sample → List Sample
  | buf, _, [] => buf
  | buf, c, v :: vs => circWrite n (buf.set (c % n) v) (c + 1) vs

/-- Sample `t` after a cursor, positions modulo `n` (R132). -/
def circRead (n : Nat) (buf : List Sample) (c t : Nat) : Sample := buf.getD ((c + t) % n) 0#16

/-- F_BUFFER_FAR (R130). -/
def execFBufferFar (s : State) : Host.Outcome State Fault Refusal :=
  let n := s.cfg.farBufLen
  let frame := (List.range FRAME_LEN).map (s.winRead .farIn)
  .next { s with
    inst := { s.inst with
      farBuf := circWrite n s.inst.farBuf s.inst.farBufWritePos frame
      farBufWritePos := (s.inst.farBufWritePos + FRAME_LEN) % n }
    seq := 2 }

/-- The read cursor moved back by the change of the delay: the residue in [0, n) (R132, R134). -/
def shiftCursor (n cursor : Nat) (delayChange : Int) : Nat :=
  (((cursor : Int) - delayChange) % (n : Int)).toNat

/-- F_FETCH_FAR (R132). -/
def execFFetchFar (s : State) : Host.Outcome State Fault Refusal :=
  let n := s.cfg.farBufLen
  let cursor := shiftCursor n s.inst.farBufReadPos (s.blk.d - s.inst.knownDelay)
  .next { s with
    blk := { s.blk with farFr80 := Vector.ofFn fun t : Fin 80 => circRead n s.inst.farBuf cursor t }
    inst := { s.inst with
      farBufReadPos := (cursor + FRAME_LEN) % n
      knownDelay := s.blk.d }
    seq := 3 }

end Sys2Proof.Machine
end

