-- ==== Sys2Proof/Machine/Frame.lean ====
section
/-! DEFINITION. PROCESS_FRAME and the stages of the re-blocking frame interface (spec/44_frame_api.md), and
IDLE (spec/10_state.md R21). -/

namespace Sys2Proof.Machine

/-- PROCESS_FRAME (R257): legal in READY; at 32000 Hz the high band must be present. It hands the delay to the
stages and starts the stage counter: the stages 1 to 31 then run one step each, and no host move is served
until the last one or a fault ends the command (spec/20_memory.md R84; log 12). -/
def execProcessFrame (hb : Bool) (delay : Int) (s : State) : Host.Outcome State Fault Refusal :=
  .next (
    if s.life ≠ .ready then raise .state s
    else if s.inst.highBand ∧ hb = false then raise .nullHighband s
    else { s with blk := { s.blk with d := delay }, seq := 1 })

/-- F_ENQUEUE (R258). A frame that ERR_NUMERIC ended has left its samples queued, and frames that follow it without
an INIT start from those fills, outside R268's table; a queue they would overfill is refused (DESIGN CHOICE, log 26). -/
def execFEnqueue (s : State) : Host.Outcome State Fault Refusal :=
  let near := (List.range FRAME_LEN).map (s.winRead .nearIn)
  let nearH := (List.range FRAME_LEN).map (s.winRead .nearHIn)
  match rbWrite s.inst.farFr s.blk.farFr80.toList, rbWrite s.inst.nearFr near,
      doneIf s.inst.highBand s.inst.nearFrH (rbWrite s.inst.nearFrH nearH) with
  | some f, some n, some h =>
    .next { s with inst := { s.inst with farFr := f, nearFr := n, nearFrH := h }, seq := 4 }
  | _, _, _ => .refused .ringOverflow

/-- F_BLOCK_TEST (R260). -/
def execFBlockTest (s : State) : Host.Outcome State Fault Refusal :=
  .next { s with seq := if rbFill s.inst.farFr ≥ PART_LEN then 5 else 30 }

/-- B_POP (R262). -/
def execBPop (s : State) : Host.Outcome State Fault Refusal :=
  match rbRead s.inst.farFr PART_LEN, rbRead s.inst.nearFr PART_LEN,
      doneIf s.inst.highBand (s.blk.nearBlH.toList, s.inst.nearFrH) (rbRead s.inst.nearFrH PART_LEN) with
  | some f, some n, some h =>
    .next { s with
      blk := { s.blk with farBl := blockOf f.1, nearBl := blockOf n.1, nearBlH := blockOf h.1 }
      inst := { s.inst with farFr := f.2, nearFr := n.2, nearFrH := h.2 }
      seq := 6 }
  | _, _, _ => .refused .ringUnderflow

/-- B_PUSH (R264). In a run from reset it refuses only where a frame goes on after an ERR_NUMERIC without an INIT
(DESIGN CHOICE, log 26). -/
def execBPush (s : State) : Host.Outcome State Fault Refusal :=
  match rbWrite s.inst.outFr s.blk.outBl.toList,
      doneIf s.inst.highBand s.inst.outFrH (rbWrite s.inst.outFrH s.blk.outBlH.toList) with
  | some o, some h => .next { s with inst := { s.inst with outFr := o, outFrH := h }, seq := 4 }
  | _, _ => .refused .ringOverflow

/-- F_STUFF (R266): zeros up to FRAME_LEN, the same number in both output buffers. -/
def execFStuff (s : State) : Host.Outcome State Fault Refusal :=
  let n := FRAME_LEN - rbFill s.inst.outFr
  match doneIf (decide (0 < n)) s.inst.outFr (rbStuff s.inst.outFr n),
      doneIf (s.inst.highBand && decide (0 < n)) s.inst.outFrH (rbStuff s.inst.outFrH n) with
  | some o, some h => .next { s with inst := { s.inst with outFr := o, outFrH := h }, seq := 31 }
  | _, _ => .refused .ringOverflow

/-- F_POP_OUT (R267): the frame goes to OUT (and OUTH) and the command ends. -/
def execFPopOut (s : State) : Host.Outcome State Fault Refusal :=
  match rbRead s.inst.outFr FRAME_LEN,
      doneIf s.inst.highBand ([], s.inst.outFrH) (rbRead s.inst.outFrH FRAME_LEN) with
  | some o, some h =>
    let mem := s.mem.writeFrame .out o.1
    .next (complete { s with
      inst := { s.inst with outFr := o.2, outFrH := h.2 }
      mem := if s.inst.highBand then mem.writeFrame .outH h.1 else mem })
  | _, _ => .refused .ringUnderflow

/-- IDLE (spec/10_state.md R21): no command runs and SEQ stays 0; the block waits for a write to CMD. -/
def execIdle (s : State) : Host.Outcome State Fault Refusal := .next s

end Sys2Proof.Machine
end

