-- ==== Sys2Proof/Machine/Metrics.lean ====
section
/-! DEFINITION. The metrics: SET_METRICS, GET_METRICS and the stage M_UPDATE (spec/45_metrics.md). -/

namespace Sys2Proof.Machine

/-- INIT values of a level tracker (R281). -/
def Level.init (p : Params) : Level := { Level.zero with minlevel := p.levelMinInit }

/-- INIT values of a statistics record (R281). -/
def Stat.init (p : Params) : Stat :=
  { Stat.zero with
    instant := p.statInit, average := p.statInit, max := p.statInit, himean := p.statInit
    min := p.statMinInit }

/-- The metrics state at its INIT values (R281). -/
def Inst.initMetrics (p : Params) (x : Inst) : Inst :=
  { x with
    farlevel := Level.init p, nearlevel := Level.init p
    linoutlevel := Level.init p, nlpoutlevel := Level.init p
    erl := Stat.init p, erle := Stat.init p, aNlp := Stat.init p, rerl := Stat.init p
    stateCounter := 0 }

/-! ### UpdateLevel (R284) -/

/-- The sum of squares with a block added: each integer square is rounded to `f32`, then added (R284,
spec/47_numerics_and_access.md R372). -/
def sumSquares (start : F32) (b : Block16) : F32 :=
  b.toList.foldl (fun acc v => acc.add (F32.ofInt (v.toInt * v.toInt))) start

/-- The minimum level after a frame level: lowered to it, or risen by 0.1 %; kept by a frame level of zero. -/
def nextMinLevel (minlevel framelevel : F32) : F32 :=
  if framelevel.gt F32.zero then
    if framelevel.lt minlevel then framelevel else minlevel.mul Lit.levelMinRise
  else minlevel

/-- A frame level is complete: it enters the minimum and the running sum (R284). -/
def Level.closeFrame (l : Level) : Level :=
  let fl := l.sfrsum.div (F32.ofInt (SUB_COUNT_LEN * PART_LEN))
  { l with
    framelevel := fl
    sfrsum := F32.zero
    sfrcounter := 0
    minlevel := nextMinLevel l.minlevel fl
    frsum := l.frsum.add fl
    frcounter := l.frcounter + 1 }

/-- An average level is complete (R284). -/
def Level.closeAverage (l : Level) : Level :=
  { l with averagelevel := l.frsum.div (F32.ofInt COUNT_LEN), frsum := F32.zero, frcounter := 0 }

/-- `UpdateLevel(L, in)`: the tracker after a block, and whether it is `fresh` (R284). -/
def Level.update (l : Level) (b : Block16) : Level × Bool :=
  let l1 := { l with sfrsum := sumSquares l.sfrsum b, sfrcounter := l.sfrcounter + 1 }
  if l1.sfrcounter = SUB_COUNT_LEN then
    let l2 := l1.closeFrame
    if l2.frcounter = COUNT_LEN then (l2.closeAverage, true) else (l2, false)
  else (l1, false)

/-! ### The statistics -/

/-- `update(R, v)` (R298). -/
def Stat.update (r : Stat) (v : F32) : Stat :=
  let sum := r.sum.add v
  let average := sum.div (F32.ofInt (r.counter + 1))
  let high := v.gt average
  let hisum := r.hisum.add v
  { instant := v
    max := if v.gt r.max then v else r.max
    min := if v.lt r.min then v else r.min
    counter := r.counter + 1
    sum := sum
    average := average
    hicounter := if high then r.hicounter + 1 else r.hicounter
    hisum := if high then hisum else r.hisum
    himean := if high then hisum.div (F32.ofInt (r.hicounter + 1)) else r.himean }

/-- `10 * log10(a / b + EPS)`: the decibel ratio of R294, R295, R296. -/
def decibels (a b : F32) : F32 := Lit.ten.mul (Num.log10 ((a.div b).add Lit.eps))

/-- ERL (R294). -/
def erlValue (x : Inst) : F32 := decibels x.farlevel.averagelevel x.nearlevel.averagelevel

/-- A_NLP (R295). -/
def aNlpValue (x : Inst) : F32 := decibels x.nearlevel.averagelevel x.linoutlevel.averagelevel

/-- An average level less SAFETY times its minimum (R296). -/
def aboveFloor (p : Params) (l : Level) : F32 := l.averagelevel.sub (p.safety.mul l.minlevel)

/-- ERLE (R296). -/
def erleValue (p : Params) (x : Inst) : F32 :=
  decibels (aboveFloor p x.nearlevel) (aboveFloor p x.nlpoutlevel)

/-- The far end is active: its average exceeds the threshold times its minimum (R292). -/
def farActive (p : Params) (l : Level) : Bool :=
  let act := if l.minlevel.lt p.noisyPower then p.actClean else p.actNoisy
  l.averagelevel.gt (act.mul l.minlevel)

/-- The statistics of a window that passes its test (R292), otherwise kept. -/
def Inst.updateStats (p : Params) (x : Inst) : Inst :=
  if x.stateCounter > SUB_COUNT_LEN * COUNT_LEN / 2 ∧ farActive p x.farlevel then
    { x with
      erl := x.erl.update (erlValue x)
      aNlp := x.aNlp.update (aNlpValue x)
      erle := x.erle.update (erleValue p x) }
  else x

/-- The metrics after a block, metrics enabled: the four trackers, the echo counter (R290), the window test
(R292). -/
def Inst.measure (p : Params) (b : Blk) (x : Inst) : Inst :=
  let far := x.farlevel.update b.farBl
  let x1 := { x with
    farlevel := far.1
    nearlevel := (x.nearlevel.update b.nearBl).1
    linoutlevel := (x.linoutlevel.update b.eSat).1
    nlpoutlevel := (x.nlpoutlevel.update b.outBl).1
    stateCounter := if x.echoState then x.stateCounter + 1 else x.stateCounter }
  if far.2 then { Inst.updateStats p x1 with stateCounter := 0 } else x1

/-- M_UPDATE (R282). -/
def execMUpdate (s : State) : Host.Outcome State Fault Refusal :=
  .next { s with
    inst := if s.inst.metricsMode then Inst.measure s.cfg s.blk s.inst else s.inst
    seq := 29 }

/-! ### The commands -/

/-- SET_METRICS (R280). -/
def execSetMetrics (enable : Bool) (s : State) : Host.Outcome State Fault Refusal :=
  .next (
    if s.life = .ready then
      let x := if enable then Inst.initMetrics s.cfg s.inst else s.inst
      complete (s.setInst { x with metricsMode := enable })
    else raise .state s)

/-- `bits(v)` as GET_METRICS exports it: the pattern; of a NaN, whose pattern is not specified, some NaN
pattern (spec/47_numerics_and_access.md R375, R377; log 7). -/
def exportBits (draw i : Nat) (v : F32) : Word :=
  if v.isNaN then
    let free := Config.nanPattern draw i
    let frac := free.extractLsb' 0 23
    BitVec.ofBool (free.getLsbD 23) ++ 0xFF#8 ++ (if frac = 0 then 1#23 else frac)
  else v.bits

/-- The five reported fields of a record in the order of the window (spec/20_memory.md R74). -/
def Stat.fields (r : Stat) : List F32 := [r.instant, r.average, r.min, r.max, r.himean]

/-- The twenty reported fields (R74, R302). -/
def Inst.reported (x : Inst) : List F32 :=
  x.erl.fields ++ x.erle.fields ++ x.aNlp.fields ++ x.rerl.fields

/-- The twenty words of the METRICS window (R302). -/
def metricsWords (draw : Nat) (x : Inst) : List Word :=
  x.reported.mapIdx fun i v => exportBits draw i v

/-- GET_METRICS (R302). -/
def execGetMetrics (s : State) : Host.Outcome State Fault Refusal :=
  .next (
    if s.life = .ready then
      let words := metricsWords s.draws s.inst
      complete ((s.setMem (s.mem.writeElems Win.metrics.base (words.map wordBytes))).drawn)
    else raise .state s)

end Sys2Proof.Machine
end

