-- ==== Sys2Proof/Machine/Lifecycle.lean ====
section
/-! DEFINITION. The lifecycle commands CREATE, INIT and DESTROY (spec/44_frame_api.md R250, R252, R270). -/

namespace Sys2Proof.Machine

/-- CREATE in OFF, for the draw `resOk` (R250). -/
def createWith (resOk : Bool) (s : State) : State :=
  if resOk then complete ((s.setInst (Inst.zero s.cfg)).setLife .created)
  else failLife .resource s

/-- CREATE (R250): legal in OFF. -/
def execCreate (s : State) : Host.Outcome State Fault Refusal :=
  .next (if s.life = .off then createWith (Config.resOk s.draws) s.drawn else raise .state s)

/-- The three legal rates (R252). -/
def validRate (rate : Nat) : Bool := rate == 8000 || rate == 16000 || rate == 32000

/-- The fields after a successful INIT (R252, R281; spec/70_reset_and_hazards.md R341). -/
def Inst.init (p : Params) (rate : Nat) : Inst :=
  Inst.initMetrics p
    { Inst.zero p with
      sampFreq := BitVec.ofNat 32 rate
      mult := multOf rate
      mu := muOf rate
      errThresh := errThreshOf rate
      targetSupp := p.targetSupp
      minOverDrive := Lit.minOverdrive
      overDrive := Lit.minOverdrive
      overDriveSm := Lit.minOverdrive
      dMinPow := Vector.replicate 65 p.dMinPowInit
      sd := Vector.replicate 65 p.sdInit
      sx := Vector.replicate 65 p.sxInit
      hNlFbMin := Lit.one
      hNlFbLocalMin := Lit.one
      hNlXdAvgMin := Lit.one
      seed := p.seed0
      kernelSel := p.simd }

/-- INIT in CREATED or READY, for the draw `resOk`: the rate, the configuration and the resources are tested
in that order (R252, spec/60_exceptions.md R313, R319). -/
def initWith (resOk : Bool) (rate : Nat) (s : State) : State :=
  if !validRate rate then failLife .badRate s
  else if !s.cfg.nlpEn then failLife .cfgUnsupported s
  else if !resOk then failLife .resource s.drawn
  else complete ((s.drawn.setInst (Inst.init s.cfg rate)).setLife .ready)

/-- INIT (R252): legal in CREATED and READY. -/
def execInit (rate : Nat) (s : State) : Host.Outcome State Fault Refusal :=
  .next (
    if s.life = .created ∨ s.life = .ready then initWith (Config.resOk s.draws) rate s
    else raise .state s)

/-- DESTROY (R270): legal in CREATED, READY and FAILED. -/
def execDestroy (s : State) : Host.Outcome State Fault Refusal :=
  .next (if s.life = .off then raise .state s else complete (s.setLife .off).loseInst)

end Sys2Proof.Machine
end

