-- ==== Sys2Proof/Machine/Suppressor.lean ====
section
/-! DEFINITION. The stages of the coherence-based suppressor (spec/42_suppressor.md); its part of N_DIVERGE
stands in Machine/Filter.lean. -/

namespace Sys2Proof.Machine

/-! ### N_DELAY_IDX (R190) -/

/-- Energy of a partition: the sum of the squared magnitudes of its 65 weights. -/
def energy (w : Spectrum) : F32 := sumRange 0 65 fun k => (w.at k).mag2

/-- The partition of the greatest energy, the lowest one of equals (strict comparison, from 0.0). -/
def bestPartition (n : Nat) (wfBuf : List Spectrum) : Nat :=
  ((List.range n).foldl
    (fun (best : Nat × F32) i =>
      let e := energy (bankAt wfBuf i)
      if e.gt best.2 then (i, e) else best) (0, F32.zero)).1

/-- N_DELAY_IDX (R190). -/
def execNDelayIdx (s : State) : Host.Outcome State Fault Refusal :=
  .next { s with
    inst := { s.inst with
      delayIdx :=
        if s.inst.delayEstCtr = 0 then bestPartition s.cfg.nrPart s.inst.wfBuf else s.inst.delayIdx
      delayEstCtr := (s.inst.delayEstCtr + 1) % delayEstInterval s.inst.mult }
    seq := 16 }

/-! ### N_WINDOW (R192) -/

/-- A history buffer under the window, rising over the old half and falling over the new one. -/
def windowed (win : Bins) (x : Time) : Time :=
  joinHalves (fun n => (oldHalf x n).mul (winUp win n)) fun n => (newHalf x n).mul (winDown win n)

/-- N_WINDOW (R192). -/
def execNWindow (s : State) : Host.Outcome State Fault Refusal :=
  let xfwBuf := s.inst.xfwBuf.set 0 (Num.fwdReal (windowed s.cfg.win s.inst.xBuf))
  .next { s with
    inst := { s.inst with xfwBuf := xfwBuf }
    blk := { s.blk with
      dfw := Num.fwdReal (windowed s.cfg.win s.inst.dBuf)
      efw := Num.fwdReal (windowed s.cfg.win s.inst.eBuf)
      xfw := bankAt xfwBuf s.inst.delayIdx }
    seq := 17 }

/-! ### N_PSD (R194) -/

/-- `g0 * old + g1 * new`. -/
def smooth (g0 g1 old new : F32) : F32 := (g0.mul old).add (g1.mul new)

/-- Real part of `conj(d) * x`, as R194 writes it. -/
def crossRe (d x : C32) : F32 := (d.re.mul x.re).add (d.im.mul x.im)
/-- Imaginary part of `conj(d) * x`. -/
def crossIm (d x : C32) : F32 := (d.re.mul x.im).sub (d.im.mul x.re)

/-- A smoothed cross-spectrum bin. -/
def smoothCross (g0 g1 : F32) (old d x : C32) : C32 :=
  ⟨smooth g0 g1 old.re (crossRe d x), smooth g0 g1 old.im (crossIm d x)⟩

/-- N_PSD (R194): the five accumulators and the sums of the near and error powers after the update. -/
def execNPsd (s : State) : Host.Outcome State Fault Refusal :=
  let g0 := s.cfg.gCohOld.get s.inst.mult
  let g1 := s.cfg.gCohNew.get s.inst.mult
  let x := s.inst
  let b := s.blk
  let sd : Bins := Vector.ofFn fun k : Fin 65 => smooth g0 g1 x.sd[k] b.dfw[k].mag2
  let se : Bins := Vector.ofFn fun k : Fin 65 => smooth g0 g1 x.se[k] b.efw[k].mag2
  .next { s with
    inst := { x with
      sd := sd
      se := se
      sx := Vector.ofFn fun k : Fin 65 => smooth g0 g1 x.sx[k] (b.xfw[k].mag2.max s.cfg.sxFloor)
      sde := Vector.ofFn fun k : Fin 65 => smoothCross g0 g1 x.sde[k] b.dfw[k] b.efw[k]
      sxd := Vector.ofFn fun k : Fin 65 => smoothCross g0 g1 x.sxd[k] b.dfw[k] b.xfw[k] }
    blk := { b with sdSum := sumRange 0 65 sd.at, seSum := sumRange 0 65 se.at }
    seq := 18 }

/-! ### N_COHERENCE (R196) -/

/-- `|S|^2 / (P * Q + EPS)`. -/
def coherence (cross : C32) (p q : F32) : F32 := cross.mag2.div ((p.mul q).add Lit.eps)

/-- N_COHERENCE (R196). -/
def execNCoherence (s : State) : Host.Outcome State Fault Refusal :=
  let x := s.inst
  .next { s with
    blk := { s.blk with
      cohde := Vector.ofFn fun k : Fin 65 => coherence x.sde[k] x.sd[k] x.se[k]
      cohxd := Vector.ofFn fun k : Fin 65 => coherence x.sxd[k] x.sx[k] x.sd[k] }
    seq := 20 }

/-! ### N_CLASSIFY (R198, R202, R204) -/

/-- Mean of a bin array over the preferred band (R198). -/
def bandMean (lo n : Nat) (v : Bins) : F32 := (sumRange lo n v.at).div (F32.ofInt n)

/-- The inverse-cohxd minimum lowered to a new low value (R202). -/
def lowerXdMin (thXdMin xdAvg xdAvgMin : F32) : F32 :=
  if xdAvg.lt thXdMin && xdAvg.lt xdAvgMin then xdAvg else xdAvgMin

/-- N_CLASSIFY: the band averages (R198), the minimum (R202), the near-end flag (R204). -/
def execNClassify (s : State) : Host.Outcome State Fault Refusal :=
  let lo := s.cfg.prefMin.get s.inst.mult
  let n := s.cfg.prefSize.get s.inst.mult
  let deAvg := bandMean lo n s.blk.cohde
  let xdAvg := Lit.one.sub (bandMean lo n s.blk.cohxd)
  .next { s with
    inst := { s.inst with
      hNlXdAvgMin := lowerXdMin s.cfg.thXdMin xdAvg s.inst.hNlXdAvgMin
      stNearState := nearFlag s.cfg s.inst.stNearState deAvg xdAvg }
    blk := { s.blk with hNlDeAvg := deAvg, hNlXdAvg := xdAvg }
    seq := 21 }

/-! ### N_GAIN (R206) -/

/-- `min(max(h, 0.0), 1.0)`. -/
def clampUnit (h : F32) : F32 := (h.max F32.zero).min Lit.one

/-- The gain of one bin: the candidate of the mode, clamped (R206 (a), (b)). -/
def gainBin (m : GainMode) (cohde cohxd : F32) : F32 :=
  clampUnit (match m with
    | .de => cohde
    | .xd => Lit.one.sub cohxd
    | .min => cohde.min (Lit.one.sub cohxd))

/-- Insertion into a list in non-decreasing order, by `<` alone. -/
def insertSorted (v : F32) : List F32 → List F32
  | [] => [v]
  | w :: t => if w.lt v then w :: insertSorted v t else v :: w :: t

/-- A list in non-decreasing order. -/
def sortBins (l : List F32) : List F32 := l.foldr insertSorted []

/-- The preferred band of a bin array in non-decreasing order (R206 (c)). -/
def sortedBand (lo n : Nat) (v : Bins) : List F32 :=
  sortBins ((List.range n).map fun i => v.at (lo + i))

/-- Index of the 75th percentile: `floor(0.75 * (n - 1))`. -/
def quantHi (n : Nat) : Nat := 3 * (n - 1) / 4
/-- Index of the 50th percentile: `floor(0.5 * (n - 1))`. -/
def quantLo (n : Nat) : Nat := (n - 1) / 2

/-- N_GAIN (R206). -/
def execNGain (s : State) : Host.Outcome State Fault Refusal :=
  let noEcho := s.inst.hNlXdAvgMin.eq Lit.one
  let m := gainMode noEcho s.inst.stNearState
  let hNl : Bins := Vector.ofFn fun k : Fin 65 => gainBin m s.blk.cohde[k] s.blk.cohxd[k]
  let n := s.cfg.prefSize.get s.inst.mult
  let band := sortedBand (s.cfg.prefMin.get s.inst.mult) n hNl
  .next { s with
    inst := { s.inst with
      echoState := echoFlag m
      overDrive := if noEcho then s.inst.minOverDrive else s.inst.overDrive }
    blk := { s.blk with
      hNl := hNl
      hNlFb := match m with
        | .de => s.blk.hNlDeAvg
        | .xd => s.blk.hNlXdAvg
        | .min => band.getD (quantHi n) F32.zero
      hNlFbLow := match m with
        | .de => s.blk.hNlDeAvg
        | .xd => s.blk.hNlXdAvg
        | .min => band.getD (quantLo n) F32.zero }
    seq := 22 }

/-! ### N_OVERDRIVE (R208 to R211) -/

/-- A new local minimum is found (R208). -/
def newMinimum (p : Params) (fbLow localMin : F32) : Bool := fbLow.lt p.thFbMin && fbLow.lt localMin

/-- A minimum risen by its step, at most 1 (R209). -/
def riseMin (v rise : F32) : F32 := (v.add rise).min Lit.one

/-- The overdrive a persisting minimum asks for (R210). -/
def overDriveFor (targetSupp fbMin minOverDrive : F32) : F32 :=
  (targetSupp.div ((Num.log (fbMin.add Lit.eps)).add Lit.eps)).max minOverDrive

/-- The smoothed overdrive (R211); OD_SLOW_ON says which direction takes the slow blend. -/
def smoothOverDrive (slowOn : OdSlow) (od sm : F32) : F32 :=
  let falling := od.lt sm
  let slow := match slowOn with
    | .decrease => falling
    | .increase => !falling
  if slow then (Lit.c0_99.mul sm).add (Lit.c0_01.mul od) else (Lit.c0_9.mul sm).add (Lit.c0_1.mul od)

/-- N_OVERDRIVE: a new minimum (R208), the slow rises (R209), the recomputation (R210), the smoothing
(R211). -/
def execNOverdrive (s : State) : Host.Outcome State Fault Refusal :=
  let x := s.inst
  let found := newMinimum s.cfg s.blk.hNlFbLow x.hNlFbLocalMin
  let localMin := if found then s.blk.hNlFbLow else x.hNlFbLocalMin
  let fbMin := if found then s.blk.hNlFbLow else x.hNlFbMin
  let pending := found || x.hNlNewMin
  let ctr := (if found then 0 else x.hNlMinCtr) + (if pending then 1 else 0)
  let persisted := decide (ctr = NEW_MIN_PERSIST)
  let od := if persisted then overDriveFor x.targetSupp fbMin x.minOverDrive else x.overDrive
  .next { s with
    inst := { x with
      hNlFbLocalMin := riseMin localMin (s.cfg.riseFb.get x.mult)
      hNlXdAvgMin := riseMin x.hNlXdAvgMin (s.cfg.riseXd.get x.mult)
      hNlFbMin := fbMin
      hNlNewMin := pending && !persisted
      hNlMinCtr := if persisted then 0 else ctr
      overDrive := od
      overDriveSm := smoothOverDrive s.cfg.odSlowOn od x.overDriveSm }
    seq := 23 }

/-! ### N_SUPPRESS (R214) -/

/-- The gain blended toward the feedback scalar where it exceeds it. -/
def blendGain (weight fb h : F32) : F32 :=
  if h.gt fb then (weight.mul fb).add ((Lit.one.sub weight).mul h) else h

/-- The final gain of a bin. -/
def finalGain (weight curve fb overDriveSm h : F32) : F32 :=
  Num.pow (blendGain weight fb h) (overDriveSm.mul curve)

/-- N_SUPPRESS (R214). -/
def execNSuppress (s : State) : Host.Outcome State Fault Refusal :=
  let hNl : Bins := Vector.ofFn fun k : Fin 65 =>
    finalGain s.cfg.weightCurve[k] s.cfg.overdriveCurve[k] s.blk.hNlFb s.inst.overDriveSm s.blk.hNl[k]
  .next { s with
    blk := { s.blk with
      hNl := hNl
      efw := Vector.ofFn fun k : Fin 65 => C32.scale hNl[k] s.blk.efw[k] }
    seq := 24 }

end Sys2Proof.Machine
end

