-- ==== Sys2Proof/Syntax.lean ====
section
/-! DEFINITION. The instructions: one constructor for each row of spec/opcode_table.json, which are the six
host commands (spec/30_encoding.md R102) and the stages of PROCESS_FRAME with IDLE (R108). -/

namespace Sys2Proof

/-- The operations of the block. Operands stand as the numbers the spec gives them (R103); their ranges are
checked in WellFormed.lean. -/
inductive Instr where
  /-- `create` (R250). -/
  | create
  /-- `init <rate>`: the unsigned operand `sampleRateHz` (R252). -/
  | init (rate : Nat)
  /-- `frame <d>` and `frame.h <d>`: `HB` and the signed operand `knownDelaySamples` (R257). -/
  | processFrame (hb : Bool) (delay : Int)
  /-- `metrics on` and `metrics off` (R280). -/
  | setMetrics (enable : Bool)
  /-- `getmetrics` (R302). -/
  | getMetrics
  /-- `destroy` (R270). -/
  | destroy
  | fBufferFar
  | fFetchFar
  | fEnqueue
  | fBlockTest
  | bPop
  | bLoad
  | bXform
  | bPow
  | bNoise
  | bFilter
  | bError
  | bErrXform
  | bScale
  | bAdapt
  | nDelayIdx
  | nWindow
  | nPsd
  | nDiverge
  | nCoherence
  | nClassify
  | nGain
  | nOverdrive
  | nSuppress
  | nComfort
  | nSynth
  | nHighband
  | nShift
  | mUpdate
  | bPush
  | fStuff
  | fPopOut
  /-- SEQ = 0, no command runs (R21). -/
  | idle
deriving DecidableEq, Repr, Inhabited

/-- What selects an operation: a word written to CMD (R100) or the value of the stage counter SEQ (R108). -/
inductive Code where
  | command (w : Word)
  | stage (seq : BitVec 5)
deriving DecidableEq, Repr, Inhabited

/-- The two ways in which a command word is ILLEGAL (R104). -/
inductive DecodeError where
  /-- A reserved opcode: `OP` is 0x00 or 0x07 to 0xFF (R106). -/
  | badOpcode
  /-- A reserved bit of the word is 1 (R105). -/
  | reservedBits
deriving DecidableEq, Repr, Inhabited

end Sys2Proof
end

