-- ==== Sys2Proof/Machine/Dispatch.lean ====
section
/-! DEFINITION. The meaning of every operation: one arm per constructor, one call per arm. -/

namespace Sys2Proof.Machine

def exec (i : Instr) (s : State) : Host.Outcome State Fault Refusal :=
  match i with
  -- the host commands (spec/30_encoding.md R102)
  | .create => Sys2Proof.Machine.execCreate s
  | .init rate => Sys2Proof.Machine.execInit rate s
  | .processFrame hb delay => Sys2Proof.Machine.execProcessFrame hb delay s
  | .setMetrics enable => Sys2Proof.Machine.execSetMetrics enable s
  | .getMetrics => Sys2Proof.Machine.execGetMetrics s
  | .destroy => Sys2Proof.Machine.execDestroy s
  -- the stages of PROCESS_FRAME and IDLE (R108)
  | .fBufferFar => Sys2Proof.Machine.execFBufferFar s
  | .fFetchFar => Sys2Proof.Machine.execFFetchFar s
  | .fEnqueue => Sys2Proof.Machine.execFEnqueue s
  | .fBlockTest => Sys2Proof.Machine.execFBlockTest s
  | .bPop => Sys2Proof.Machine.execBPop s
  | .bLoad => Sys2Proof.Machine.execBLoad s
  | .bXform => Sys2Proof.Machine.execBXform s
  | .bPow => Sys2Proof.Machine.execBPow s
  | .bNoise => Sys2Proof.Machine.execBNoise s
  | .bFilter => Sys2Proof.Machine.execBFilter s
  | .bError => Sys2Proof.Machine.execBError s
  | .bErrXform => Sys2Proof.Machine.execBErrXform s
  | .bScale => Sys2Proof.Machine.execBScale s
  | .bAdapt => Sys2Proof.Machine.execBAdapt s
  | .nDelayIdx => Sys2Proof.Machine.execNDelayIdx s
  | .nWindow => Sys2Proof.Machine.execNWindow s
  | .nPsd => Sys2Proof.Machine.execNPsd s
  | .nDiverge => Sys2Proof.Machine.execNDiverge s
  | .nCoherence => Sys2Proof.Machine.execNCoherence s
  | .nClassify => Sys2Proof.Machine.execNClassify s
  | .nGain => Sys2Proof.Machine.execNGain s
  | .nOverdrive => Sys2Proof.Machine.execNOverdrive s
  | .nSuppress => Sys2Proof.Machine.execNSuppress s
  | .nComfort => Sys2Proof.Machine.execNComfort s
  | .nSynth => Sys2Proof.Machine.execNSynth s
  | .nHighband => Sys2Proof.Machine.execNHighband s
  | .nShift => Sys2Proof.Machine.execNShift s
  | .mUpdate => Sys2Proof.Machine.execMUpdate s
  | .bPush => Sys2Proof.Machine.execBPush s
  | .fStuff => Sys2Proof.Machine.execFStuff s
  | .fPopOut => Sys2Proof.Machine.execFPopOut s
  | .idle => Sys2Proof.Machine.execIdle s

end Sys2Proof.Machine
end

