-- ==== Sys2Proof/WellFormed.lean ====
section
/-! DEFINITION. The operand ranges of an instruction (spec/30_encoding.md R103, R110). -/

namespace Sys2Proof

/-- The operands fit their fields: `rate` is an unsigned 24-bit number, `delay` a signed 23-bit number. The
other operations have no operand that could fail to fit. -/
def Instr.wf : Instr → Bool
  | .init rate => decide (rate < 2 ^ 24)
  | .processFrame _ delay => decide (-2 ^ 22 ≤ delay ∧ delay < 2 ^ 22)
  | .create | .setMetrics _ | .getMetrics | .destroy => true
  | .fBufferFar | .fFetchFar | .fEnqueue | .fBlockTest | .bPop | .bLoad | .bXform | .bPow => true
  | .bNoise | .bFilter | .bError | .bErrXform | .bScale | .bAdapt | .nDelayIdx | .nWindow => true
  | .nPsd | .nDiverge | .nCoherence | .nClassify | .nGain | .nOverdrive | .nSuppress => true
  | .nComfort | .nSynth | .nHighband | .nShift | .mUpdate | .bPush | .fStuff | .fPopOut => true
  | .idle => true

/-- `Instr.wf` as a proposition. -/
abbrev Instr.WellFormed (i : Instr) : Prop := i.wf = true

end Sys2Proof
end

