-- ==== Sys2Proof/Decode.lean ====
section
/-! DEFINITION. Decoding of command words and of stage numbers, total, and the encoder beside it
(spec/30_encoding.md R100 to R108). -/

namespace Sys2Proof

/-- `OP = w[31:24]` (R100). -/
def opField (w : Word) : BitVec 8 := w.extractLsb' 24 8

/-- `imm24 = w[23:0]` (R101). -/
def imm24Field (w : Word) : BitVec 24 := w.extractLsb' 0 24

/-- `imm23 = w[22:0]` (R101). -/
def imm23Field (w : Word) : BitVec 23 := w.extractLsb' 0 23

/-- `HB = w[23]` (R101). -/
def hbField (w : Word) : Bool := w.getLsbD 23

/-- Decoding of a command word, in the order of R104: the opcode, then the reserved bits, then the operands
of R103. It reads no state. -/
def decodeCommand (w : Word) : Except DecodeError Instr :=
  match (opField w).toNat with
  | 0x01 => if imm24Field w = 0 then .ok .create else .error .reservedBits
  | 0x02 => .ok (.init (imm24Field w).toNat)
  | 0x03 => .ok (.processFrame (hbField w) (imm23Field w).toInt)
  | 0x04 =>
    if w.extractLsb' 1 23 = 0 then .ok (.setMetrics (w.getLsbD 0)) else .error .reservedBits
  | 0x05 => if imm24Field w = 0 then .ok .getMetrics else .error .reservedBits
  | 0x06 => if imm24Field w = 0 then .ok .destroy else .error .reservedBits
  | _ => .error .badOpcode

/-- The stage a value of SEQ names (R108). -/
def decodeStage (seq : BitVec 5) : Instr :=
  match seq.toNat with
  | 1 => .fBufferFar
  | 2 => .fFetchFar
  | 3 => .fEnqueue
  | 4 => .fBlockTest
  | 5 => .bPop
  | 6 => .bLoad
  | 7 => .bXform
  | 8 => .bPow
  | 9 => .bNoise
  | 10 => .bFilter
  | 11 => .bError
  | 12 => .bErrXform
  | 13 => .bScale
  | 14 => .bAdapt
  | 15 => .nDelayIdx
  | 16 => .nWindow
  | 17 => .nPsd
  | 18 => .nDiverge
  | 19 => .nCoherence
  | 20 => .nClassify
  | 21 => .nGain
  | 22 => .nOverdrive
  | 23 => .nSuppress
  | 24 => .nComfort
  | 25 => .nSynth
  | 26 => .nHighband
  | 27 => .nShift
  | 28 => .mUpdate
  | 29 => .bPush
  | 30 => .fStuff
  | 31 => .fPopOut
  | _ => .idle

/-- Decoding of either kind of code. -/
def decodeCode : Code → Except DecodeError Instr
  | .command w => decodeCommand w
  | .stage n => .ok (decodeStage n)

/-- What the host asks: the operation of an opcode-table row's bits. A row of at most 8 bits is a value of
SEQ (5 bits, the rest 0), a longer one a command word. -/
def decodeTableWord (nbits w : Nat) : Option Instr :=
  if nbits ≤ 8 then
    if w < 32 then some (decodeStage (BitVec.ofNat 5 w)) else none
  else if w < 2 ^ 32 then (decodeCommand (BitVec.ofNat 32 w)).toOption
  else none

/-- A command word from its opcode and its 24 operand bits (R101). -/
def commandWord (op : BitVec 8) (imm : BitVec 24) : Word := op ++ imm

/-- The code of a well-formed operation (R102, R103, R108, R110). -/
def encode : Instr → Code
  | .create => .command (commandWord 0x01 0)
  | .init rate => .command (commandWord 0x02 (BitVec.ofNat 24 rate))
  | .processFrame hb delay =>
    .command (commandWord 0x03 (BitVec.ofBool hb ++ BitVec.ofInt 23 delay))
  | .setMetrics enable => .command (commandWord 0x04 (0#23 ++ BitVec.ofBool enable))
  | .getMetrics => .command (commandWord 0x05 0)
  | .destroy => .command (commandWord 0x06 0)
  | .fBufferFar => .stage 1
  | .fFetchFar => .stage 2
  | .fEnqueue => .stage 3
  | .fBlockTest => .stage 4
  | .bPop => .stage 5
  | .bLoad => .stage 6
  | .bXform => .stage 7
  | .bPow => .stage 8
  | .bNoise => .stage 9
  | .bFilter => .stage 10
  | .bError => .stage 11
  | .bErrXform => .stage 12
  | .bScale => .stage 13
  | .bAdapt => .stage 14
  | .nDelayIdx => .stage 15
  | .nWindow => .stage 16
  | .nPsd => .stage 17
  | .nDiverge => .stage 18
  | .nCoherence => .stage 19
  | .nClassify => .stage 20
  | .nGain => .stage 21
  | .nOverdrive => .stage 22
  | .nSuppress => .stage 23
  | .nComfort => .stage 24
  | .nSynth => .stage 25
  | .nHighband => .stage 26
  | .nShift => .stage 27
  | .mUpdate => .stage 28
  | .bPush => .stage 29
  | .fStuff => .stage 30
  | .fPopOut => .stage 31
  | .idle => .stage 0

end Sys2Proof
end

