-- ==== Sys2Proof/Machine/Fetch.lean ====
section
/-! DEFINITION. What the next step runs: the stage that SEQ names while a command runs, else the next move of
the host (spec/10_state.md R21; spec/20_memory.md R80, R83, R84; assumption log 12 to 16). -/

namespace Sys2Proof.Machine

/-- What a fetch finds. -/
inductive Fetched where
  /-- An operation to run, and the state it runs in. -/
  | run (i : Instr) (s : State)
  /-- A host move or an illegal command word, already served. -/
  | done (s : State)
  /-- The machine stops. -/
  | fault (r : Fault)
  /-- The step is refused. -/
  | refuse (r : Refusal)
deriving DecidableEq, Repr

/-- A write to CMD starts a command (R100): the word is kept, DONE is cleared (R24), the word is decoded
(R104); an illegal word raises its fault before anything else (R105, R106; spec/60_exceptions.md R313). -/
def startCommand (w : Word) (s : State) : Fetched :=
  let s1 := { s with cmd := w, done := false }
  match decodeCommand w with
  | .ok i => .run i s1
  | .error .badOpcode => .done (raise .opcode s1)
  | .error .reservedBits => .done (raise .encoding s1)

/-- A host write of a word (R71, R80). -/
def serveWrite (a : Nat) (w : Word) (s : State) : Fetched :=
  if a = 0 then startCommand w s
  else if a < 0x800 then .done (s.hostStore a w)
  else .fault (.outsideHostSpace a)

/-- A host read of a word; it changes nothing but what the host has read (R80). -/
def serveRead (a : Nat) (asReply : Word → HostReply) (s : State) : Fetched :=
  if a < 0x800 then .done { s with reply := asReply (s.hostWord a) }
  else .fault (.outsideHostSpace a)

/-- The bytes of a word in the byte order of the mapping, lowest address first (R77). -/
def busBytes (o : ByteOrder) (w : Word) : List Byte :=
  match o with
  | .little => wordBytes w
  | .big => (wordBytes w).reverse

/-- The word of four bytes in the byte order of the mapping (R77). -/
def busWord (o : ByteOrder) (bs : List Byte) : Word :=
  let l := match o with
    | .little => bs
    | .big => bs.reverse
  l.getD 3 0 ++ l.getD 2 0 ++ l.getD 1 0 ++ l.getD 0 0

/-- An access on a byte-addressed mapping is an aligned 32-bit one (R79). -/
def busAligned (addr size : Nat) : Bool := decide (size = 4 ∧ addr % 4 = 0)

/-- A host move between commands. -/
def serve (m : HostMove) (s : State) : Fetched :=
  match m with
  | .read a => serveRead a .word s
  | .write a w => serveWrite a w s
  | .busRead a n =>
    if busAligned a n then serveRead (a / 4) (fun w => .bytes (busBytes s.cfg.byteOrder w)) s
    else .refuse .unalignedBusAccess
  | .busWrite a bs =>
    if busAligned a bs.length then serveWrite (a / 4) (busWord s.cfg.byteOrder bs) s
    else .refuse .unalignedBusAccess
  | .reset _ simd => .done (hardwareReset simd s)

/-- The next thing to do. A reset input that is due comes first, also inside a command, which it abandons
(R340); one that is not yet due comes a step nearer. While SEQ is not 0 the stage it names runs and the host
waits (R84). Else the host's next move is served; without one the block idles. -/
def fetch (s : State) : Fetched :=
  match s.hostQ with
  | .reset 0 simd :: q => .done (hardwareReset simd { s with hostQ := q })
  | .reset (n + 1) simd :: q => .run (decodeStage s.seq) { s with hostQ := .reset n simd :: q }
  | [] => .run (decodeStage s.seq) s
  | m :: q => if s.seq ≠ 0 then .run (decodeStage s.seq) s else serve m { s with hostQ := q }

end Sys2Proof.Machine
end

