-- ==== Sys2Proof/Machine/Step.lean ====
section
/-! DEFINITION. One step of the block. -/

namespace Sys2Proof.Machine

/-- One step: what the fetch finds is run by `exec`, or has been served. -/
def step (s : State) : Host.Outcome State Fault Refusal :=
  match fetch s with
  | .run i s' => exec i s'
  | .done s' => .next s'
  | .fault r => .fault r
  | .refuse r => .refused r

/-- The state whose next step runs the operation of an opcode-table row's bits: a stage number (a row of at
most 8 bits) is the value of SEQ, with no host move pending, which could be served in its place; a command
word is the host's next write to CMD, served with SEQ at 0 (log 13). -/
def State.withFetchWord (s : State) (nbits w : Nat) : State :=
  if nbits ≤ 8 then { s with seq := BitVec.ofNat 5 w, hostQ := [] }
  else { s with seq := 0, hostQ := .write 0 (BitVec.ofNat 32 w) :: s.hostQ }

end Sys2Proof.Machine
end

