-- ==== Sys2Proof/Safety.lean ====
section
/-! DEFINITION. What the claims about the block speak of: legal parameters, the invariants of
spec/10_state.md R48 and of the counters, the fills of spec/44_frame_api.md R268, and runs of steps. -/

namespace Sys2Proof

/-- The constraints on the parameters that the spec states: the preferred bands and the high-band range lie in
the 65 bins, the weight curve in [0, 1], the overdrive curve above 0, NOISE_STEP in [0, 1), off thresholds at
most the on thresholds, rises and smoothing coefficients not negative, and the two lengths fit their
registers (spec/00_scope.md R8; spec/42_suppressor.md R194, R198, R204, R209). -/
abbrev Params.Legal (p : Params) : Prop :=
  (1 ≤ p.prefSize.at1 ∧ p.prefMin.at1 + p.prefSize.at1 ≤ 65) ∧
  (1 ≤ p.prefSize.at2 ∧ p.prefMin.at2 + p.prefSize.at2 ≤ 65) ∧
  (p.hbAvgLo ≤ p.hbAvgHi ∧ p.hbAvgHi ≤ 64) ∧
  (p.weightCurve.all F32.inUnit = true) ∧
  (p.overdriveCurve.all (fun v => v.gt F32.zero) = true) ∧
  (F32.zero.le p.noiseStep = true ∧ p.noiseStep.lt Lit.one = true) ∧
  (p.thNearDeOff.le p.thNearDeOn = true ∧ p.thNearXdOff.le p.thNearXdOn = true) ∧
  (F32.zero.le p.riseXd.at1 = true ∧ F32.zero.le p.riseXd.at2 = true) ∧
  (F32.zero.le p.riseFb.at1 = true ∧ F32.zero.le p.riseFb.at2 = true) ∧
  (p.nrPart < 2 ^ 32 ∧ p.farBufLen < 2 ^ 32)

/-- The value is not negative in the sense of I-c: its sign bit is clear. A NaN of this model has it clear. -/
def F32.signClear (a : F32) : Bool := !a.sign

namespace Machine

/-! ### Runs -/

/-- `n` steps, stopping at a fault or a refusal. -/
def runSteps : Nat → State → Host.Outcome State Fault Refusal
  | 0, s => .next s
  | n + 1, s =>
    match step s with
    | .next t => runSteps n t
    | .fault r => .fault r
    | .refused r => .refused r

/-- The host's next move, if there is one, is not a reset input, due or not. -/
def State.noResetNext (s : State) : Prop := ∀ n simd q, s.hostQ ≠ .reset n simd :: q

/-- Every byte of the windows reads the same. -/
def State.SameBytes (s t : State) : Prop := ∀ a, t.byteAt a = s.byteAt a

/-- A stage ends: `t` is `s` with these fields of the filter, these values between the stages and this SEQ,
and every byte of the windows reads as before. -/
abbrev State.StageEnds (s t : State) (x : Inst) (b : Blk) (n : BitVec 5) : Prop :=
  t = { s with inst := x, blk := b, seq := n } ∧ s.SameBytes t

/-- A command that moves no window element ends without a fault: DONE is 1, SEQ is 0 (spec/10_state.md R24). -/
abbrev State.CommandEnds (s t : State) (l : Life) (x : Inst) (draws : Nat) : Prop :=
  t = { s with life := l, inst := x, draws := draws, done := true, seq := 0 } ∧ s.SameBytes t

/-- A command or a stage ends with a fault (spec/60_exceptions.md R312): FAULT is 1, ERR holds the first fault,
DONE is 0, SEQ is 0; LIFE, the fields and the number of draws are as given; every byte reads as before. -/
abbrev State.FaultEnds (s t : State) (c : FaultCode) (l : Life) (x : Inst) (draws : Nat) : Prop :=
  t = { s with
    life := l, inst := x, draws := draws
    err := if s.fault then s.err else errWord s.cmd c
    fault := true, done := false, seq := 0 } ∧ s.SameBytes t

/-- The word is the pattern that GET_METRICS may write for a value: the value's own, and of a NaN any NaN
pattern (spec/45_metrics.md R302, spec/47_numerics_and_access.md R375; log 7). -/
abbrev exportsAs (w : Word) (v : F32) : Prop :=
  if v.isNaN then (F32.mk w).isNaN = true else w = v.bits

/-- The instance has a high band: 32000 Hz (spec/44_frame_api.md R257). -/
abbrev Inst.wide (x : Inst) : Prop := x.sampFreq = 32000#32

/-! ### UpdateLevel as the spec writes it (spec/45_metrics.md R284) -/

/-- The tracker `l'` is what UpdateLevel makes of `l` and a block. -/
abbrev Level.UpdatesTo (l l' : Level) (b : Block16) : Prop :=
  let sum := (List.range 64).foldl
    (fun acc k => acc.add (F32.ofInt ((b.toList.getD k 0#16).toInt * (b.toList.getD k 0#16).toInt))) l.sfrsum
  let fl := sum.div (F32.ofInt 256)
  if l.sfrcounter + 1 ≠ 4 then l' = { l with sfrsum := sum, sfrcounter := l.sfrcounter + 1 }
  else
    l'.framelevel = fl ∧ l'.sfrsum = F32.zero ∧ l'.sfrcounter = 0 ∧
    l'.minlevel =
      (if fl.gt F32.zero then (if fl.lt l.minlevel then fl else l.minlevel.mul Lit.levelMinRise)
        else l.minlevel) ∧
    (if l.frcounter + 1 = 50 then
      l'.averagelevel = (l.frsum.add fl).div (F32.ofInt 50) ∧ l'.frsum = F32.zero ∧ l'.frcounter = 0
    else
      l'.averagelevel = l.averagelevel ∧ l'.frsum = l.frsum.add fl ∧ l'.frcounter = l.frcounter + 1)

/-- The record `r'` is what update makes of `r` and a value (spec/45_metrics.md R298). -/
abbrev Stat.UpdatesTo (r r' : Stat) (v : F32) : Prop :=
  r'.instant = v ∧ r'.max = (if v.gt r.max then v else r.max) ∧ r'.min = (if v.lt r.min then v else r.min) ∧
  r'.counter = r.counter + 1 ∧ r'.sum = r.sum.add v ∧
  r'.average = r'.sum.div (F32.ofInt (r.counter + 1)) ∧
  (if v.gt r'.average then
    r'.hicounter = r.hicounter + 1 ∧ r'.hisum = r.hisum.add v ∧
      r'.himean = r'.hisum.div (F32.ofInt (r.hicounter + 1))
  else r'.hicounter = r.hicounter ∧ r'.hisum = r.hisum ∧ r'.himean = r.himean)

/-! ### Invariants (R48) -/

/-- The arrays have their lengths (spec/20_memory.md R75). -/
def Inst.Shape (p : Params) (x : Inst) : Prop :=
  x.farBuf.length = p.farBufLen ∧ x.xfBuf.length = p.nrPart ∧ x.wfBuf.length = p.nrPart ∧
    x.xfwBuf.length = p.nrPart

/-- I-a, I-b, I-g: the cursors and indices lie in their arrays. -/
def Inst.Cursors (p : Params) (x : Inst) : Prop :=
  x.xfBufBlockPos < p.nrPart ∧ x.farBufReadPos < p.farBufLen ∧ x.farBufWritePos < p.farBufLen ∧
    x.delayIdx < p.nrPart

/-- I-f: no ring buffer holds more than RB_CAP samples. -/
def Inst.RingsBounded (x : Inst) : Prop :=
  rbFill x.farFr ≤ RB_CAP ∧ rbFill x.nearFr ≤ RB_CAP ∧ rbFill x.outFr ≤ RB_CAP ∧
    rbFill x.nearFrH ≤ RB_CAP ∧ rbFill x.outFrH ≤ RB_CAP

/-- I-d, I-e: the overdrive is at least its minimum, the two rising minima are at most 1. -/
def Inst.Levels (x : Inst) : Prop :=
  x.minOverDrive.le x.overDrive = true ∧ x.hNlFbLocalMin.le Lit.one = true ∧
    x.hNlXdAvgMin.le Lit.one = true

/-- A tracker's counters lie below their periods (R284). -/
def Level.Counting (l : Level) : Prop := l.sfrcounter < SUB_COUNT_LEN ∧ l.frcounter < COUNT_LEN

/-- The counters (spec/47_numerics_and_access.md R370): the echo counter is at most the number of blocks of the
window so far (R47). -/
def Inst.Counters (x : Inst) : Prop :=
  x.noiseEstCtr ≤ noiseInitBlocks x.mult ∧ x.hNlMinCtr < NEW_MIN_PERSIST ∧
    x.farlevel.Counting ∧ x.nearlevel.Counting ∧ x.linoutlevel.Counting ∧ x.nlpoutlevel.Counting ∧
    x.stateCounter ≤ SUB_COUNT_LEN * x.farlevel.frcounter + x.farlevel.sfrcounter

/-- A delay that the 23-bit operand can carry (spec/30_encoding.md R103). -/
def delayInRange (d : Int) : Prop := -2 ^ 22 ≤ d ∧ d < 2 ^ 22

/-- What holds of the fields while the filter exists (CREATED or READY). -/
def Inst.Inv (p : Params) (x : Inst) : Prop :=
  x.Shape p ∧ x.Cursors p ∧ x.RingsBounded ∧ x.Levels ∧ x.Counters ∧ delayInRange x.knownDelay

/-- What INIT fixes and every stage keeps (spec/10_state.md R27, R28, R42). -/
def Inst.ReadyInv (x : Inst) : Prop :=
  validRate x.sampFreq.toNat = true ∧ x.mult = multOf x.sampFreq.toNat ∧
    x.mu = muOf x.sampFreq.toNat ∧ x.errThresh = errThreshOf x.sampFreq.toNat ∧
    x.minOverDrive = Lit.minOverdrive ∧ x.delayEstCtr < delayEstInterval x.mult

/-- The invariant of the block: the memory is canonical; a filter that exists is in order; a command runs only
in READY and with a delay that its word can carry; ERR is 0 until the first fault (R25). -/
def State.Inv (s : State) : Prop :=
  s.mem.wf ∧ (s.life.exists = true → s.inst.Inv s.cfg) ∧ (s.life = .ready → s.inst.ReadyInv) ∧
    (s.seq ≠ 0 → s.life = .ready ∧ delayInRange s.blk.d) ∧ (s.fault = false → s.err = 0)

/-- The alignment law (spec/40_delay_buffer.md R136), between the stages too: after F_BUFFER_FAR and before
F_FETCH_FAR the write cursor is one frame ahead. -/
def State.Aligned (s : State) : Prop :=
  s.life.exists = true →
    ((s.inst.farBufWritePos : Int) - s.inst.farBufReadPos) % s.cfg.farBufLen =
      (s.inst.knownDelay + if s.seq = 2 then (FRAME_LEN : Int) else 0) % s.cfg.farBufLen

/-- The parameters that keep the smoothed powers from becoming negative (spec/42_suppressor.md R194). -/
abbrev powerParams (p : Params) : Prop :=
  p.gCohOld.at1.signClear = true ∧ p.gCohOld.at2.signClear = true ∧
    p.gCohNew.at1.signClear = true ∧ p.gCohNew.at2.signClear = true ∧
    p.sdInit.signClear = true ∧ p.sxInit.signClear = true ∧ p.sxFloor.signClear = true

/-- I-c: the smoothed powers are not negative. -/
def Inst.PowersClear (x : Inst) : Prop :=
  ∀ k : Fin 65, x.xPow[k].signClear = true ∧ x.dPow[k].signClear = true ∧
    x.sd[k].signClear = true ∧ x.se[k].signClear = true ∧ x.sx[k].signClear = true

/-- I-c, while the filter exists, under parameters that allow it. -/
def State.PowersInv (s : State) : Prop :=
  powerParams s.cfg → s.life.exists = true → s.inst.PowersClear

/-! ### Fills (R268) -/

/-- The fills (input, output) that follow those before a frame: `f(n)` and `o(n)` of R268. -/
def frameFills (f o : Nat) : Nat × Nat :=
  let b := (f + 80) / 64
  ((f + 80) % 64, o + 64 * b + (80 - (o + 64 * b)) - 80)

/-- The pairs of fills of R268's table: before the first frame, while padding, and in the period of four. -/
def fillTable : List (Nat × Nat) :=
  [(0, 0), (16, 0), (32, 0), (48, 0), (0, 48), (16, 32), (32, 16)]

/-- The ring buffers hold `f` and `o` samples. -/
def Inst.Fills (x : Inst) (f o : Nat) : Prop :=
  rbFill x.farFr = f ∧ rbFill x.nearFr = f ∧ rbFill x.outFr = o ∧
    (x.highBand = true → rbFill x.nearFrH = f ∧ rbFill x.outFrH = o)

/-! ### What the metrics and the kernel selector may not influence -/

/-- Two filters agree in all but the metrics (spec/45_metrics.md R304). -/
def Inst.SameAudio (x y : Inst) : Prop :=
  y = { x with
    metricsMode := y.metricsMode
    farlevel := y.farlevel, nearlevel := y.nearlevel
    linoutlevel := y.linoutlevel, nlpoutlevel := y.nlpoutlevel
    erl := y.erl, erle := y.erle, aNlp := y.aNlp, rerl := y.rerl
    stateCounter := y.stateCounter }

/-- Two states agree in all but the metrics and in every byte outside the METRICS window
(spec/20_memory.md R71). -/
def State.SameAudioBytes (s t : State) : Prop :=
  s.inst.SameAudio t.inst ∧ t = { s with inst := t.inst, mem := t.mem } ∧
    ∀ a, a < 4 * 0x600 ∨ 4 * 0x614 ≤ a → t.byteAt a = s.byteAt a

/-- Two outcomes are alike: states in the given relation, or the same stop. -/
def sameOutcome (r : State → State → Prop) (a b : Host.Outcome State Fault Refusal) : Prop :=
  (∃ s t, a = .next s ∧ b = .next t ∧ r s t) ∨ (∃ f, a = .fault f ∧ b = .fault f) ∨
    (∃ f, a = .refused f ∧ b = .refused f)

/-- The state with the other kernel selected (spec/41_adaptive_filter.md R178). -/
def State.withKernel (s : State) (k : Bool) : State := s.setInst { s.inst with kernelSel := k }

/-- An outcome with the state replaced by a function of it. -/
def mapNext (f : State → State) :
    Host.Outcome State Fault Refusal → Host.Outcome State Fault Refusal
  | .next t => .next (f t)
  | .fault r => .fault r
  | .refused r => .refused r

end Machine

end Sys2Proof
end

