-- ==== Sys2Proof/Certificates/Slice0/Obligations.lean ====
section
/-! DEFINITION. The statements for the provers, one `def Obligations.<Name> : Prop` each; OBLIGATIONS.json lists
them. Where a statement rests on something the spec marks as its own inference, or on an entry of the assumption
log, its docstring says so. -/

open Sys2Proof Sys2Proof.Machine

/-! ### Encoding (spec/30_encoding.md) -/

/-- Decoding and encoding are inverse to each other: every well-formed operation is read back from its code,
with every operand value, and every legal code is the code of the operation it decodes to
(spec/30_encoding.md R101 to R104, R108, R110). -/
def Obligations.DecodeEncodeInverse : Prop :=
  (∀ i : Instr, i.WellFormed → decodeCode (encode i) = .ok i) ∧
  (∀ (c : Code) (i : Instr), decodeCode c = .ok i → i.WellFormed ∧ encode i = c)

/-- Words written out from the encodings of the spec decode to their operations (R101 to R103, R108). -/
def Obligations.SpecWordsDecode : Prop :=
  decodeCommand 0x01000000#32 = .ok .create ∧
  decodeCommand 0x02003E80#32 = .ok (.init 16000) ∧
  decodeCommand 0x03000064#32 = .ok (.processFrame false 100) ∧
  decodeCommand 0x03FFFFFD#32 = .ok (.processFrame true (-3)) ∧
  decodeCommand 0x03400000#32 = .ok (.processFrame false (-4194304)) ∧
  decodeCommand 0x04000001#32 = .ok (.setMetrics true) ∧
  decodeCommand 0x05000000#32 = .ok .getMetrics ∧
  decodeCommand 0x06000000#32 = .ok .destroy ∧
  decodeStage 0#5 = .idle ∧ decodeStage 1#5 = .fBufferFar ∧ decodeStage 14#5 = .bAdapt ∧
  decodeStage 18#5 = .nDiverge ∧ decodeStage 24#5 = .nComfort ∧ decodeStage 28#5 = .mUpdate ∧
  decodeStage 31#5 = .fPopOut

/-! ### Steps and the host (spec/10_state.md section 2, spec/20_memory.md) -/

/-- With no command running, a write of a legal word to CMD runs the command it encodes: CMD holds the word,
DONE is cleared, the host move is consumed (R100, spec/10_state.md R24). -/
def Obligations.StepRunsCommandWord : Prop :=
  ∀ (s : State) (w : Word) (q : List HostMove) (i : Instr),
    s.seq = 0 → s.hostQ = .write 0 w :: q → decodeCommand w = .ok i →
    step s = exec i { s with hostQ := q, cmd := w, done := false }

/-- While a command runs, or with no host move to serve, a step runs the operation that SEQ names; host moves
other than the reset input wait and stay as they are (R21, R108; that they wait is the model's choice, log 13). -/
def Obligations.StepRunsStage : Prop :=
  ∀ s : State, s.noResetNext → (s.seq ≠ 0 ∨ s.hostQ = []) →
    step s = exec (decodeStage s.seq) s

/-- An illegal word written to CMD raises its fault before anything else, in every state, and every other word
runs one of the six commands (R104, R105, R106; spec/60_exceptions.md R312). -/
def Obligations.IllegalWordsFault : Prop :=
  ∀ (s : State) (w : Word) (q : List HostMove),
    s.seq = 0 → s.hostQ = .write 0 w :: q →
    let op := w.toNat / 2 ^ 24
    let low := w.toNat % 2 ^ 24
    let s1 : State := { s with hostQ := q, cmd := w, done := false }
    let badOp : Prop := op = 0 ∨ 7 ≤ op
    let badBits : Prop := ((op = 1 ∨ op = 5 ∨ op = 6) ∧ low ≠ 0) ∨ (op = 4 ∧ 2 ≤ low)
    (badOp → ∃ t, step s = .next t ∧ s1.FaultEnds t .opcode s.life s.inst s.draws) ∧
    (badBits → ∃ t, step s = .next t ∧ s1.FaultEnds t .encoding s.life s.inst s.draws) ∧
    (¬badOp ∧ ¬badBits → ∃ i, decodeCommand w = .ok i ∧ i.WellFormed ∧ step s = exec i s1 ∧
      ((op = 1 ∧ i = .create) ∨ (op = 2 ∧ i = .init low) ∨ (op = 3 ∧ ∃ hb d, i = .processFrame hb d) ∨
        (op = 4 ∧ i = .setMetrics (decide (low = 1))) ∨ (op = 5 ∧ i = .getMetrics) ∨
        (op = 6 ∧ i = .destroy)))

/-- The reset input is taken at the next step once it is due, whatever runs, and leaves the registers as R340
says; before, it only comes a step nearer. That the input is a timed host move, CMD at 0 and free fields are the
model's (log 5, 14). -/
def Obligations.ResetInput : Prop :=
  ∀ (s : State) (n : Nat) (simd : Bool) (q : List HostMove),
    (s.hostQ = .reset (n + 1) simd :: q →
      step s = exec (decodeStage s.seq) { s with hostQ := .reset n simd :: q }) ∧
    (s.hostQ = .reset 0 simd :: q →
      ∃ t, step s = .next t ∧ t.life = .off ∧ t.statusWord = 0 ∧ t.hostWord 2 = 0 ∧ t.seq = 0 ∧
        t.hostWord 3 = configWord { s.cfg with simd := simd } ∧
        t = { s with
          cfg := { s.cfg with simd := simd }
          life := .off, fault := false, done := false, err := 0, cmd := 0, seq := 0, hostQ := q
          inst := t.inst, mem := [], memEpoch := s.draws + 1, draws := s.draws + 1 })

/-- A host write to an input window stores bits 15:0 of the word in that element and changes nothing else; a
read of the element returns them sign-extended and changes nothing but what the host has read (R71, R72,
R80). -/
def Obligations.InputWindowReadsBack : Prop :=
  ∀ (s : State) (a : Nat) (w : Word) (q : List HostMove),
    s.seq = 0 → s.hostQ = .write a w :: .read a :: q →
    ((0x100 ≤ a ∧ a < 0x150) ∨ (0x200 ≤ a ∧ a < 0x250) ∨ (0x300 ≤ a ∧ a < 0x350)) →
    ∃ t u, step s = .next t ∧ step t = .next u ∧
      t = { s with hostQ := .read a :: q, mem := t.mem } ∧
      (∀ b, b ≠ 4 * a → b ≠ 4 * a + 1 → t.byteAt b = s.byteAt b) ∧
      u = { t with hostQ := q, reply := .word ((w.extractLsb' 0 16).signExtend 32) }

/-- A host write elsewhere in the host space (a read-only register, an output window, a reserved address)
changes nothing; beyond it the machine stops (R71, spec/10_state.md R23; the stop is log 16). -/
def Obligations.OtherHostWritesIgnored : Prop :=
  ∀ (s : State) (a : Nat) (w : Word) (q : List HostMove),
    s.seq = 0 → s.hostQ = .write a w :: q → a ≠ 0 →
    ¬((0x100 ≤ a ∧ a < 0x150) ∨ (0x200 ≤ a ∧ a < 0x250) ∨ (0x300 ≤ a ∧ a < 0x350)) →
    (a < 0x800 → step s = .next { s with hostQ := q }) ∧
    (0x800 ≤ a → step s = .fault (.outsideHostSpace a))

/-- What a host read returns at every address of the host space, between commands; it changes nothing else
(R71, R72, R80; spec/10_state.md R23, R24, R26). NRPART and FARBUFLEN are read modulo 2 ^ 32 (log 2). -/
def Obligations.HostReads : Prop :=
  ∀ (s : State) (a : Nat) (q : List HostMove),
    s.seq = 0 → s.hostQ = .read a :: q → a < 0x800 →
    ∃ (t : State) (v : Word), step s = .next t ∧ t = { s with hostQ := q, reply := .word v } ∧
      (a = 0 → v = 0) ∧
      (a = 1 → v.toNat =
        (match s.life with | .off => 0 | .created => 1 | .ready => 2 | .failed => 3) +
        (if s.fault then 8 else 0) +
        (if (s.life = .created ∨ s.life = .ready) ∧ s.inst.metricsMode then 16 else 0) +
        (if (s.life = .created ∨ s.life = .ready) ∧ s.inst.kernelSel then 32 else 0) +
        (if s.done then 64 else 0)) ∧
      (a = 2 → v = s.err) ∧
      (a = 3 → v.toNat =
        (if s.cfg.unconstr then 1 else 0) + (if s.cfg.adaptEn then 2 else 0) +
        (if s.cfg.nlpEn then 4 else 0) + (if s.cfg.cnEn then 8 else 0) +
        (if s.cfg.hbCnEn then 16 else 0) + (if s.cfg.simd then 32 else 0)) ∧
      (a = 4 → v = s.inst.sampFreq) ∧
      (a = 5 → v.toNat = s.cfg.nrPart % 2 ^ 32) ∧
      (a = 6 → v.toNat = s.cfg.farBufLen % 2 ^ 32) ∧
      ((0x100 ≤ a ∧ a < 0x150) ∨ (0x200 ≤ a ∧ a < 0x250) ∨ (0x300 ≤ a ∧ a < 0x350) ∨
        (0x400 ≤ a ∧ a < 0x450) ∨ (0x500 ≤ a ∧ a < 0x550) →
        v = (s.byteAt (4 * a + 1) ++ s.byteAt (4 * a)).signExtend 32) ∧
      (0x600 ≤ a ∧ a < 0x614 → v = s.wordAt a) ∧
      ((7 ≤ a ∧ a < 0x100) ∨ (0x150 ≤ a ∧ a < 0x200) ∨ (0x250 ≤ a ∧ a < 0x300) ∨
        (0x350 ≤ a ∧ a < 0x400) ∨ (0x450 ≤ a ∧ a < 0x500) ∨ (0x550 ≤ a ∧ a < 0x600) ∨
        (0x614 ≤ a) → v = 0)

/-- A byte-addressed mapping: byte address 4 * a is word a, the bytes in the order of BYTE_ORDER; an access that
is not an aligned 32-bit one is refused (R77, R79; that both orders are modelled is log 15). -/
def Obligations.ByteMapping : Prop :=
  ∀ (s : State) (q : List HostMove), s.seq = 0 →
    (∀ a n, s.hostQ = .busRead a n :: q → ¬(n = 4 ∧ a % 4 = 0) →
      step s = .refused .unalignedBusAccess) ∧
    (∀ a bs, s.hostQ = .busWrite a bs :: q → ¬(bs.length = 4 ∧ a % 4 = 0) →
      step s = .refused .unalignedBusAccess) ∧
    (∀ a, s.hostQ = .busRead (4 * a) 4 :: q → a < 0x800 →
      ∃ (t : State) (b3 b2 b1 b0 : Byte),
        step { s with hostQ := .read a :: q } = .next t ∧ t.reply = .word (b3 ++ b2 ++ b1 ++ b0) ∧
        (s.cfg.byteOrder = .little → step s = .next { t with reply := .bytes [b0, b1, b2, b3] }) ∧
        (s.cfg.byteOrder = .big → step s = .next { t with reply := .bytes [b3, b2, b1, b0] })) ∧
    (∀ (a : Nat) (b0 b1 b2 b3 : Byte), s.hostQ = .busWrite (4 * a) [b0, b1, b2, b3] :: q →
      (s.cfg.byteOrder = .little →
        step s = step { s with hostQ := .write a (b3 ++ b2 ++ b1 ++ b0) :: q }) ∧
      (s.cfg.byteOrder = .big →
        step s = step { s with hostQ := .write a (b0 ++ b1 ++ b2 ++ b3) :: q }))

/-! ### Faults (spec/60_exceptions.md) -/

/-- What raising a fault records: the code of R311 under the upper 24 bits of the command word, unless an
earlier fault stands in ERR; FAULT is set, DONE and SEQ are cleared, nothing else changes (R311, R312). -/
def Obligations.FaultMechanism : Prop :=
  ∀ (s : State) (c : FaultCode),
    (raise c s).fault = true ∧ (raise c s).done = false ∧ (raise c s).seq = 0 ∧
    (s.fault = true → (raise c s).err = s.err) ∧
    (s.fault = false → (raise c s).err.toNat = s.cmd.toNat / 256 * 256 +
      (match c with
        | .opcode => 1 | .encoding => 2 | .state => 3 | .badRate => 4
        | .cfgUnsupported => 5 | .resource => 6 | .nullHighband => 7 | .numeric => 8)) ∧
    raise c s = { s with err := (raise c s).err, fault := true, done := false, seq := 0 }

/-- Which commands are legal in which lifecycle state, and to which state they lead; an illegal one raises
ERR_STATE and changes no field and not LIFE (R314). -/
def Obligations.LifecycleTable : Prop :=
  ∀ s : State,
    (s.life = .off → ∃ t, exec .create s = .next t ∧ (t.life = .created ∨ t.life = .failed)) ∧
    (∀ rate, s.life = .created ∨ s.life = .ready →
      ∃ t, exec (.init rate) s = .next t ∧ (t.life = .ready ∨ t.life = .failed)) ∧
    (s.life = .ready →
      (∀ hb d, ∃ t, exec (.processFrame hb d) s = .next t ∧ t.life = .ready ∧
        (t.seq = 1 ∨ (s.inst.wide ∧ hb = false))) ∧
      (∀ e, ∃ t, exec (.setMetrics e) s = .next t ∧ t.life = .ready ∧ t.done = true) ∧
      ∃ t, exec .getMetrics s = .next t ∧ t.life = .ready ∧ t.done = true) ∧
    (s.life ≠ .off → ∃ t, exec .destroy s = .next t ∧ t.life = .off ∧ t.done = true) ∧
    (∀ i, (i = .create ∧ s.life ≠ .off) ∨ (i = .destroy ∧ s.life = .off) ∨
        ((∃ rate, i = .init rate) ∧ (s.life = .off ∨ s.life = .failed)) ∨
        (((∃ hb d, i = .processFrame hb d) ∨ (∃ e, i = .setMetrics e) ∨ i = .getMetrics) ∧
          s.life ≠ .ready) →
      ∃ t, exec i s = .next t ∧ s.FaultEnds t .state s.life s.inst s.draws)

/-- FAULT is sticky and ERR keeps the first fault, along every run in which no reset input is given
(spec/10_state.md R24, R25; R312). -/
def Obligations.FaultIsSticky : Prop :=
  ∀ (n : Nat) (s t : State), (∀ k simd, HostMove.reset k simd ∉ s.hostQ) →
    runSteps n s = .next t → s.fault = true → t.fault = true ∧ t.err = s.err

/-! ### Lifecycle commands and metrics commands (spec/44_frame_api.md, spec/45_metrics.md) -/

/-- CREATE in OFF clears every field and leads to CREATED, or, where the draw fails, to FAILED with ERR_RESOURCE
and free fields; DESTROY elsewhere leads to OFF with free fields and keeps FAULT, ERR and the windows (R250, R270;
the draw is log 6, the free fields log 5). -/
def Obligations.CreateAndDestroyResults : Prop :=
  (∀ s : State, s.life = .off → ∃ t, exec .create s = .next t ∧
    if Config.resOk s.draws then s.CommandEnds t .created (Inst.zero s.cfg) (s.draws + 1)
    else s.FaultEnds t .resource .failed t.inst (s.draws + 2)) ∧
  (∀ s : State, s.life ≠ .off → ∃ t, exec .destroy s = .next t ∧
    s.CommandEnds t .off (Config.freeInst s.draws) (s.draws + 1))

/-- INIT in CREATED or READY: with a valid rate, the suppressor configured and the resources drawn, every field
takes its INIT value and LIFE is READY; otherwise LIFE is FAILED with the first fault that applies (R252, R281,
R319; the draw is log 6, the free fields log 5). -/
def Obligations.InitResult : Prop :=
  ∀ (s : State) (rate : Nat), s.life = .created ∨ s.life = .ready →
    ∃ t, exec (.init rate) s = .next t ∧
    (¬(rate = 8000 ∨ rate = 16000 ∨ rate = 32000) →
      s.FaultEnds t .badRate .failed t.inst (s.draws + 1)) ∧
    ((rate = 8000 ∨ rate = 16000 ∨ rate = 32000) → s.cfg.nlpEn = false →
      s.FaultEnds t .cfgUnsupported .failed t.inst (s.draws + 1)) ∧
    ((rate = 8000 ∨ rate = 16000 ∨ rate = 32000) → s.cfg.nlpEn = true →
      if Config.resOk s.draws then
        let level : Level := { Level.zero with minlevel := s.cfg.levelMinInit }
        let stat : Stat := { Stat.zero with
          instant := s.cfg.statInit, average := s.cfg.statInit, max := s.cfg.statInit
          himean := s.cfg.statInit, min := s.cfg.statMinInit }
        s.CommandEnds t .ready
          { Inst.zero s.cfg with
            sampFreq := BitVec.ofNat 32 rate
            mult := if rate = 8000 then 1 else 2
            mu := if rate = 8000 then Lit.c0_6 else Lit.c0_5
            errThresh := if rate = 8000 then Lit.c2e_6 else Lit.c1_5e_6
            targetSupp := s.cfg.targetSupp
            minOverDrive := Lit.minOverdrive
            overDrive := Lit.minOverdrive
            overDriveSm := Lit.minOverdrive
            dMinPow := Vector.replicate 65 s.cfg.dMinPowInit
            sd := Vector.replicate 65 s.cfg.sdInit
            sx := Vector.replicate 65 s.cfg.sxInit
            hNlFbMin := Lit.one
            hNlFbLocalMin := Lit.one
            hNlXdAvgMin := Lit.one
            seed := s.cfg.seed0
            kernelSel := s.cfg.simd
            farlevel := level, nearlevel := level, linoutlevel := level, nlpoutlevel := level
            erl := stat, erle := stat, aNlp := stat, rerl := stat } (s.draws + 1)
      else s.FaultEnds t .resource .failed t.inst (s.draws + 2))

/-- PROCESS_FRAME in READY starts the stages with SEQ 1 and hands them the delay; at 32000 Hz without the high
band it faults instead and changes nothing else; at other rates HB is ignored (R257; the delay kept in a field of
the model's own is log 12). -/
def Obligations.ProcessFrameStarts : Prop :=
  ∀ (s : State) (hb : Bool) (d : Int), s.life = .ready → ∃ t, exec (.processFrame hb d) s = .next t ∧
    (s.inst.wide ∧ hb = false → s.FaultEnds t .nullHighband s.life s.inst s.draws) ∧
    (¬(s.inst.wide ∧ hb = false) → s.StageEnds t s.inst { s.blk with d := d } 1)

/-- SET_METRICS in READY sets the mode; enabling puts the metrics state at its INIT values (R280, R281). -/
def Obligations.SetMetricsResult : Prop :=
  ∀ (s : State) (e : Bool), s.life = .ready → ∃ t, exec (.setMetrics e) s = .next t ∧
    s.CommandEnds t .ready t.inst s.draws ∧
    (e = false → t.inst = { s.inst with metricsMode := false }) ∧
    (e = true →
      let level : Level := { Level.zero with minlevel := s.cfg.levelMinInit }
      let stat : Stat := { Stat.zero with
        instant := s.cfg.statInit, average := s.cfg.statInit, max := s.cfg.statInit
        himean := s.cfg.statInit, min := s.cfg.statMinInit }
      t.inst = { s.inst with
        metricsMode := true, stateCounter := 0
        farlevel := level, nearlevel := level, linoutlevel := level, nlpoutlevel := level
        erl := stat, erle := stat, aNlp := stat, rerl := stat })

/-- GET_METRICS in READY writes the five reported fields of the four records to the METRICS window and nothing
else; of a NaN, some NaN pattern (R302, spec/20_memory.md R74; the free pattern is log 7). -/
def Obligations.GetMetricsResult : Prop :=
  ∀ s : State, s.life = .ready → ∃ t, exec .getMetrics s = .next t ∧
    (∀ r : Fin 4,
      let rec4 := [s.inst.erl, s.inst.erle, s.inst.aNlp, s.inst.rerl][r]
      exportsAs (t.wordAt (0x600 + 5 * r + 0)) rec4.instant ∧
      exportsAs (t.wordAt (0x600 + 5 * r + 1)) rec4.average ∧
      exportsAs (t.wordAt (0x600 + 5 * r + 2)) rec4.min ∧
      exportsAs (t.wordAt (0x600 + 5 * r + 3)) rec4.max ∧
      exportsAs (t.wordAt (0x600 + 5 * r + 4)) rec4.himean) ∧
    (∀ a, a < 4 * 0x600 ∨ 4 * 0x614 ≤ a → t.byteAt a = s.byteAt a) ∧
    t = { s with mem := t.mem, draws := s.draws + 1, done := true, seq := 0 }

/-! ### The delay buffer (spec/40_delay_buffer.md) -/

/-- F_BUFFER_FAR writes the 80 elements of FAR_IN at the write cursor, wrapping around the buffer, and moves the
cursor; every other position keeps its sample (R130). -/
def Obligations.FBufferFarResult : Prop :=
  ∀ s : State, s.inst.farBuf.length = s.cfg.farBufLen → ∃ t, exec .fBufferFar s = .next t ∧
    (∀ j : Fin 80, t.inst.farBuf.getD ((s.inst.farBufWritePos + j) % s.cfg.farBufLen) 0 = s.winRead .farIn j) ∧
    (∀ p, (∀ j : Fin 80, p ≠ (s.inst.farBufWritePos + j) % s.cfg.farBufLen) →
      t.inst.farBuf.getD p 0 = s.inst.farBuf.getD p 0) ∧
    t.inst.farBuf.length = s.cfg.farBufLen ∧
    t.inst.farBufWritePos = (s.inst.farBufWritePos + 80) % s.cfg.farBufLen ∧
    s.StageEnds t
      { s.inst with farBuf := t.inst.farBuf, farBufWritePos := t.inst.farBufWritePos } s.blk 2

/-- F_FETCH_FAR moves the read cursor back by the change of the delay, modulo the buffer, reads 80 samples from
there and advances by them; any delay is accepted, and delays that differ by a multiple of FAR_BUF_LEN fetch the
same (R132, R134; the spec marks the last advance as its own derivation). -/
def Obligations.FFetchFarResult : Prop :=
  ∀ s : State, ∃ t, exec .fFetchFar s = .next t ∧
    (let n : Int := s.cfg.farBufLen
     let c : Int := (s.inst.farBufReadPos - (s.blk.d - s.inst.knownDelay)) % n
     (∀ j : Fin 80, t.blk.farFr80[j] = s.inst.farBuf.getD ((c + (j : Nat)) % n).toNat 0) ∧
     (t.inst.farBufReadPos : Int) = (c + 80) % n ∧ t.inst.knownDelay = s.blk.d ∧
     s.StageEnds t
       { s.inst with farBufReadPos := t.inst.farBufReadPos, knownDelay := s.blk.d }
       { s.blk with farFr80 := t.blk.farFr80 } 3) ∧
    (∀ k : Int, ∃ u,
      exec .fFetchFar { s with blk := { s.blk with d := s.blk.d + k * s.cfg.farBufLen } } = .next u ∧
      u.blk.farFr80 = t.blk.farFr80 ∧ u.inst.farBufReadPos = t.inst.farBufReadPos)

/-- The alignment law: every step keeps that the write cursor leads the read cursor by the known delay, modulo the
buffer; between the two stages of the buffer it leads by one frame more (R136, which the spec marks as its
derivation). -/
def Obligations.StepKeepsAlignment : Prop :=
  ∀ s t : State, s.Aligned → step s = .next t → t.Aligned

/-! ### Re-blocking (spec/44_frame_api.md) -/

/-- F_ENQUEUE appends the aligned far frame and the near frames; where a queue would overflow the step is refused
(R258, spec/20_memory.md R78; log 17). -/
def Obligations.FEnqueueResult : Prop :=
  ∀ s : State,
    let room : Prop := s.inst.farFr.length + 80 ≤ 144 ∧ s.inst.nearFr.length + 80 ≤ 144 ∧
      (s.inst.wide → s.inst.nearFrH.length + 80 ≤ 144)
    (room → ∃ t, exec .fEnqueue s = .next t ∧
      t.inst.farFr = s.inst.farFr ++ s.blk.farFr80.toList ∧
      t.inst.nearFr = s.inst.nearFr ++ List.ofFn (fun j : Fin 80 => s.winRead .nearIn j) ∧
      t.inst.nearFrH = (if s.inst.wide then
        s.inst.nearFrH ++ List.ofFn (fun j : Fin 80 => s.winRead .nearHIn j) else s.inst.nearFrH) ∧
      s.StageEnds t
        { s.inst with farFr := t.inst.farFr, nearFr := t.inst.nearFr, nearFrH := t.inst.nearFrH } s.blk 4) ∧
    (¬room → exec .fEnqueue s = .refused .ringOverflow)

/-- F_BLOCK_TEST goes on to stage 5 while at least 64 far-end samples are queued and to stage 30 otherwise;
IDLE changes nothing (R260; spec/10_state.md R21). -/
def Obligations.BlockTestAndIdle : Prop :=
  ∀ s : State,
    (∃ t, exec .fBlockTest s = .next t ∧
      s.StageEnds t s.inst s.blk (if 64 ≤ s.inst.farFr.length then 5 else 30)) ∧
    exec .idle s = .next s

/-- B_POP takes the 64 oldest samples of each input queue, oldest first; where a queue holds fewer the step is
refused (R262, spec/20_memory.md R78; the refusal is log 17). -/
def Obligations.BPopResult : Prop :=
  ∀ s : State,
    let enough : Prop := 64 ≤ s.inst.farFr.length ∧ 64 ≤ s.inst.nearFr.length ∧
      (s.inst.wide → 64 ≤ s.inst.nearFrH.length)
    (enough → ∃ t, exec .bPop s = .next t ∧
      (∀ k : Fin 64, t.blk.farBl[k] = s.inst.farFr.getD k 0 ∧ t.blk.nearBl[k] = s.inst.nearFr.getD k 0 ∧
        t.blk.nearBlH[k] = (if s.inst.wide then s.inst.nearFrH.getD k 0 else s.blk.nearBlH[k])) ∧
      s.StageEnds t
        { s.inst with
          farFr := s.inst.farFr.drop 64, nearFr := s.inst.nearFr.drop 64
          nearFrH := if s.inst.wide then s.inst.nearFrH.drop 64 else s.inst.nearFrH }
        { s.blk with farBl := t.blk.farBl, nearBl := t.blk.nearBl, nearBlH := t.blk.nearBlH } 6) ∧
    (¬enough → exec .bPop s = .refused .ringUnderflow)

/-- B_PUSH appends the output blocks; where a queue would overflow the step is refused (R264,
spec/20_memory.md R78; the refusal is log 17). -/
def Obligations.BPushResult : Prop :=
  ∀ s : State,
    let room : Prop := s.inst.outFr.length + 64 ≤ 144 ∧ (s.inst.wide → s.inst.outFrH.length + 64 ≤ 144)
    (room → ∃ t, exec .bPush s = .next t ∧
      s.StageEnds t
        { s.inst with
          outFr := s.inst.outFr ++ s.blk.outBl.toList
          outFrH := if s.inst.wide then s.inst.outFrH ++ s.blk.outBlH.toList else s.inst.outFrH } s.blk 4) ∧
    (¬room → exec .bPush s = .refused .ringOverflow)

/-- F_STUFF puts zeros at the read end of the output queue up to a full frame, and as many in the high band's;
it stops only where the high band's queue would overflow (R266, spec/20_memory.md R78; the refusal is log 17; that the
zeros go to the read end the spec marks as its derivation). -/
def Obligations.FStuffResult : Prop :=
  ∀ s : State,
    let n := 80 - s.inst.outFr.length
    let room : Prop := s.inst.wide → s.inst.outFr.length < 80 → s.inst.outFrH.length + n ≤ 144
    (room → ∃ t, exec .fStuff s = .next t ∧ 80 ≤ t.inst.outFr.length ∧
      s.StageEnds t
        { s.inst with
          outFr := List.replicate n 0 ++ s.inst.outFr
          outFrH := if s.inst.wide then List.replicate n 0 ++ s.inst.outFrH else s.inst.outFrH } s.blk 31) ∧
    (¬room → exec .fStuff s = .refused .ringOverflow)

/-- F_POP_OUT moves the 80 oldest output samples to OUT (and at 32000 Hz to OUTH), touches no other byte and ends
the command; where a queue holds fewer the step is refused (R267, spec/20_memory.md R78; log 17). -/
def Obligations.FPopOutResult : Prop :=
  ∀ s : State,
    let enough : Prop := 80 ≤ s.inst.outFr.length ∧ (s.inst.wide → 80 ≤ s.inst.outFrH.length)
    (enough → ∃ t, exec .fPopOut s = .next t ∧
      (∀ j : Fin 80, t.winRead .out j = s.inst.outFr.getD j 0 ∧
        (s.inst.wide → t.winRead .outH j = s.inst.outFrH.getD j 0)) ∧
      (∀ a, (∀ j : Fin 80, a ≠ 4 * (0x400 + j) ∧ a ≠ 4 * (0x400 + j) + 1) →
        (s.inst.wide → ∀ j : Fin 80, a ≠ 4 * (0x500 + j) ∧ a ≠ 4 * (0x500 + j) + 1) →
        t.byteAt a = s.byteAt a) ∧
      t = { s with
        inst := { s.inst with
          outFr := s.inst.outFr.drop 80
          outFrH := if s.inst.wide then s.inst.outFrH.drop 80 else s.inst.outFrH }
        mem := t.mem, done := true, seq := 0 }) ∧
    (¬enough → exec .fPopOut s = .refused .ringUnderflow)

/-- A whole PROCESS_FRAME, from the write to CMD: started with queues as in R268's table it is never refused, it
ends after at most 59 steps with SEQ 0 and the host's other moves untouched, and either DONE is 1 and the queues
hold what the table says comes next, or it ended with ERR_NUMERIC (R257, R268, spec/60_exceptions.md R318; R268
the spec marks as derived; that each stage is a step of its own is log 12). -/
def Obligations.FrameFillCycle : Prop :=
  ∀ (s : State) (f o : Nat) (hb : Bool) (d : Int) (w : Word) (q : List HostMove),
    s.life = .ready → s.seq = 0 → s.hostQ = .write 0 w :: q → (∀ n simd r, q ≠ .reset n simd :: r) →
    decodeCommand w = .ok (.processFrame hb d) → (s.inst.wide → hb = true) →
    (f, o) ∈ fillTable → s.inst.Fills f o →
    ∃ n t, n ≤ 59 ∧ runSteps n s = .next t ∧ t.seq = 0 ∧ t.life = .ready ∧ t.hostQ = q ∧
      ((t.done = true ∧ t.fault = s.fault ∧ t.err = s.err ∧
          t.inst.Fills (frameFills f o).1 (frameFills f o).2 ∧ frameFills f o ∈ fillTable) ∨
        (t.done = false ∧ t.fault = true ∧ (s.fault = false → t.err = errWord w .numeric)))

/-! ### The adaptive filter (spec/41_adaptive_filter.md) -/

/-- B_LOAD places the popped blocks, as exact floats, in the new halves of the histories; the old halves stay
(R150). -/
def Obligations.BLoadResult : Prop :=
  ∀ s : State, ∃ t, exec .bLoad s = .next t ∧
    (∀ n : Fin 64,
      t.inst.xBuf[n.val] = s.inst.xBuf[n.val] ∧ t.inst.xBuf[64 + n.val] = F32.ofInt s.blk.farBl[n].toInt ∧
      t.inst.dBuf[n.val] = s.inst.dBuf[n.val] ∧ t.inst.dBuf[64 + n.val] = F32.ofInt s.blk.nearBl[n].toInt ∧
      (s.inst.wide → t.inst.dBufH[n.val] = s.inst.dBufH[n.val] ∧
        t.inst.dBufH[64 + n.val] = F32.ofInt s.blk.nearBlH[n].toInt)) ∧
    (¬s.inst.wide → t.inst.dBufH = s.inst.dBufH) ∧
    s.StageEnds t
      { s.inst with xBuf := t.inst.xBuf, dBuf := t.inst.dBuf, dBufH := t.inst.dBufH } s.blk 7

/-- B_XFORM transforms the far and the near history; bins 0 and 64 come out real, and a history of zeros gives a
spectrum of zeros (R152; spec/00_scope.md R17 N1, N2). B_ERR_XFORM transforms the error block after 64 zeros
(R162; the zero half the spec marks as general knowledge). -/
def Obligations.TransformResults : Prop :=
  ∀ s : State,
    (∃ t, exec .bXform s = .next t ∧
      t.blk.xf = Num.fwdReal s.inst.xBuf ∧ t.blk.df = Num.fwdReal s.inst.dBuf ∧
      t.blk.xf[0].im = F32.zero ∧ t.blk.xf[64].im = F32.zero ∧
      t.blk.df[0].im = F32.zero ∧ t.blk.df[64].im = F32.zero ∧
      ((∀ n : Fin 128, s.inst.xBuf[n].isZero = true) →
        ∀ k : Fin 65, t.blk.xf[k].re.isZero = true ∧ t.blk.xf[k].im.isZero = true) ∧
      s.StageEnds t s.inst { s.blk with xf := t.blk.xf, df := t.blk.df } 8) ∧
    (∃ t, exec .bErrXform s = .next t ∧
      (∀ z : Time, (∀ n : Fin 64, z[n.val] = F32.zero ∧ z[64 + n.val] = s.blk.e[n]) →
        t.blk.ef = Num.fwdReal z) ∧
      s.StageEnds t s.inst { s.blk with ef := t.blk.ef } 13)

/-- B_POW smooths the far and the near power of every bin (R154). -/
def Obligations.BPowResult : Prop :=
  ∀ s : State, ∃ t, exec .bPow s = .next t ∧
    (∀ k : Fin 65,
      t.inst.xPow[k] = (Lit.c0_9.mul s.inst.xPow[k]).add
        ((Lit.c0_1.mul (F32.ofInt s.cfg.nrPart)).mul
          ((s.blk.xf[k].re.mul s.blk.xf[k].re).add (s.blk.xf[k].im.mul s.blk.xf[k].im))) ∧
      t.inst.dPow[k] = (Lit.c0_9.mul s.inst.dPow[k]).add
        (Lit.c0_1.mul ((s.blk.df[k].re.mul s.blk.df[k].re).add (s.blk.df[k].im.mul s.blk.df[k].im)))) ∧
    s.StageEnds t { s.inst with xPow := t.inst.xPow, dPow := t.inst.dPow } s.blk 9

/-- B_NOISE: the decaying minimum, from the 52nd block on; the start-up ramp while the block counter is below its
limit, and the choice of the noise power (R155, R156; the form of the attack and the third branch of the ramp the
spec marks as general knowledge). -/
def Obligations.BNoiseResult : Prop :=
  ∀ s : State, ∃ t, exec .bNoise s = .next t ∧
    (∀ k : Fin 65,
      t.inst.dMinPow[k] =
        (if 50 < s.inst.noiseEstCtr then
          (if s.inst.dPow[k].lt s.inst.dMinPow[k] then
            (s.inst.dPow[k].add (s.cfg.noiseStep.mul (s.inst.dMinPow[k].sub s.inst.dPow[k]))).mul Lit.ramp
          else s.inst.dMinPow[k].mul Lit.ramp)
        else s.inst.dMinPow[k]) ∧
      t.inst.dInitMinPow[k] =
        (if s.inst.noiseEstCtr < 500 * s.inst.mult then
          (if t.inst.dMinPow[k].gt s.inst.dInitMinPow[k] then
            (Lit.c0_999.mul s.inst.dInitMinPow[k]).add (Lit.c0_001.mul t.inst.dMinPow[k])
          else t.inst.dMinPow[k])
        else s.inst.dInitMinPow[k])) ∧
    s.StageEnds t
      { s.inst with
        dMinPow := t.inst.dMinPow, dInitMinPow := t.inst.dInitMinPow
        noiseEstCtr := if s.inst.noiseEstCtr < 500 * s.inst.mult then s.inst.noiseEstCtr + 1
          else s.inst.noiseEstCtr
        noiseSel := decide (500 * s.inst.mult ≤ s.inst.noiseEstCtr) } s.blk 10

/-- B_FILTER turns the index back by one, stores the far spectrum there and forms the echo estimate of every bin
as the sum over the partitions, each with its own lag, partition 0 first (R158, R159). -/
def Obligations.BFilterResult : Prop :=
  ∀ s : State, s.inst.xfBuf.length = s.cfg.nrPart → ∃ t, exec .bFilter s = .next t ∧
    (t.inst.xfBufBlockPos : Int) = ((s.inst.xfBufBlockPos : Int) - 1) % (s.cfg.nrPart : Int) ∧
    bankAt t.inst.xfBuf t.inst.xfBufBlockPos = s.blk.xf ∧
    (∀ p, p ≠ t.inst.xfBufBlockPos → bankAt t.inst.xfBuf p = bankAt s.inst.xfBuf p) ∧
    t.inst.xfBuf.length = s.cfg.nrPart ∧
    (∀ k : Fin 65, t.blk.yf[k] = (List.range s.cfg.nrPart).foldl
      (fun acc i => acc.add
        ((bankAt t.inst.xfBuf ((i + t.inst.xfBufBlockPos) % s.cfg.nrPart))[k].mul (bankAt s.inst.wfBuf i)[k]))
      C32.zero) ∧
    s.StageEnds t
      { s.inst with xfBufBlockPos := t.inst.xfBufBlockPos, xfBuf := t.inst.xfBuf }
      { s.blk with yf := t.blk.yf } 11

/-- B_ERROR: the error is the near end less the second half of the scaled inverse transform; it becomes the new
half of eBuf, and its saturation is kept for the metrics (R160; which half it is the spec marks as its own
inference; the saturation of a NaN is a free value, log 8, of which nothing is said). -/
def Obligations.BErrorResult : Prop :=
  ∀ s : State, ∃ t, exec .bError s = .next t ∧
    (∀ n : Fin 64,
      t.blk.e[n] = s.inst.dBuf[64 + n.val].sub ((Num.invReal s.blk.yf)[64 + n.val].mul Lit.ifftScale) ∧
      t.inst.eBuf[n.val] = s.inst.eBuf[n.val] ∧ t.inst.eBuf[64 + n.val] = t.blk.e[n] ∧
      (t.blk.e[n].isNaN = false → sat16 t.blk.e[n] = some t.blk.eSat[n])) ∧
    t = { s with
      inst := { s.inst with eBuf := t.inst.eBuf }
      blk := { s.blk with e := t.blk.e, eSat := t.blk.eSat }
      draws := s.draws + 1, seq := 12 } ∧ s.SameBytes t

/-- B_SCALE divides every bin by its far power plus EPS, limits its magnitude to the threshold and multiplies it
by the step size (R164). -/
def Obligations.BScaleResult : Prop :=
  ∀ s : State, ∃ t, exec .bScale s = .next t ∧
    (∀ k : Fin 65,
      let n := s.inst.xPow[k].add Lit.eps
      let re := s.blk.ef[k].re.div n
      let im := s.blk.ef[k].im.div n
      let a := ((re.mul re).add (im.mul im)).sqrt
      let g := s.inst.errThresh.div a
      t.blk.ef[k] =
        if a.gt s.inst.errThresh then ⟨s.inst.mu.mul (g.mul re), s.inst.mu.mul (g.mul im)⟩
        else ⟨s.inst.mu.mul re, s.inst.mu.mul im⟩) ∧
    s.StageEnds t s.inst { s.blk with ef := t.blk.ef } 14

/-- B_ADAPT adds to every partition's weights the cross term of its far spectrum and the error, constrained to 64
taps in time unless the unconstrained variant is configured; with adaptation disabled the weights stay (R166, R168,
R170). -/
def Obligations.BAdaptResult : Prop :=
  ∀ s : State, ∃ t, exec .bAdapt s = .next t ∧
    (s.cfg.adaptEn = false → t.inst.wfBuf = s.inst.wfBuf) ∧
    (s.cfg.adaptEn = true → ∀ i, i < s.inst.wfBuf.length → ∀ g : Spectrum,
      (∀ k : Fin 65,
        let x := (bankAt s.inst.xfBuf ((i + s.inst.xfBufBlockPos) % s.cfg.nrPart))[k]
        g[k] = C32.mul ⟨x.re, x.im.neg⟩ s.blk.ef[k]) →
      (s.cfg.unconstr = true →
        ∀ k : Fin 65, (bankAt t.inst.wfBuf i)[k] = (bankAt s.inst.wfBuf i)[k].add g[k]) ∧
      (s.cfg.unconstr = false → ∀ v : Time,
        (∀ n : Fin 64, v[n.val] = (Num.invReal g)[n.val].mul Lit.ifftScale ∧ v[64 + n.val] = F32.zero) →
        ∀ k : Fin 65, (bankAt t.inst.wfBuf i)[k] = (bankAt s.inst.wfBuf i)[k].add (Num.fwdReal v)[k])) ∧
    t.inst.wfBuf.length = s.inst.wfBuf.length ∧
    s.StageEnds t { s.inst with wfBuf := t.inst.wfBuf } s.blk 15

/-- N_DIVERGE: the divergence flag with its two thresholds, the substitution while it is set, and the hard reset of
all weights (R174, R176; spec/42_suppressor.md R195). -/
def Obligations.NDivergeResult : Prop :=
  ∀ s : State, ∃ t, exec .nDiverge s = .next t ∧
    t.inst.divergeState =
      (if s.inst.divergeState = false then s.blk.seSum.gt s.blk.sdSum
        else if (s.blk.seSum.mul Lit.c1_05).lt s.blk.sdSum then false else true) ∧
    t.blk.efw = (if t.inst.divergeState then s.blk.dfw else s.blk.efw) ∧
    t.inst.wfBuf.length = s.inst.wfBuf.length ∧
    (s.blk.seSum.gt (Lit.divReset.mul s.blk.sdSum) = true →
      ∀ i (k : Fin 65), (bankAt t.inst.wfBuf i)[k] = C32.zero) ∧
    (s.blk.seSum.gt (Lit.divReset.mul s.blk.sdSum) = false → t.inst.wfBuf = s.inst.wfBuf) ∧
    s.StageEnds t
      { s.inst with divergeState := t.inst.divergeState, wfBuf := t.inst.wfBuf }
      { s.blk with efw := t.blk.efw } 19

/-- An error spectrum of zeros leaves a filter of zero weights at zero, whatever the far end was as long as its
spectra are finite (R168, the source's silence idempotence; N1). -/
def Obligations.ZeroErrorKeepsZeroWeights : Prop :=
  ∀ s : State,
    (∀ k : Fin 65, s.blk.ef[k].re.isZero = true ∧ s.blk.ef[k].im.isZero = true) →
    (∀ p (k : Fin 65), (bankAt s.inst.xfBuf p)[k].re.isFinite = true ∧
      (bankAt s.inst.xfBuf p)[k].im.isFinite = true) →
    (∀ p (k : Fin 65), (bankAt s.inst.wfBuf p)[k].re.isZero = true ∧
      (bankAt s.inst.wfBuf p)[k].im.isZero = true) →
    ∃ t, exec .bAdapt s = .next t ∧
      ∀ p (k : Fin 65), (bankAt t.inst.wfBuf p)[k].re.isZero = true ∧
        (bankAt t.inst.wfBuf p)[k].im.isZero = true

/-! ### The suppressor (spec/42_suppressor.md) -/

/-- N_DELAY_IDX: in the block where the counter is 0 the index becomes the first partition of greatest energy, 0 if
none has any, a NaN never counting; in other blocks it stays; the counter runs modulo 10 * mult (R190). -/
def Obligations.NDelayIdxResult : Prop :=
  ∀ s : State, ∃ t, exec .nDelayIdx s = .next t ∧
    (let energyOf := fun i => (List.range 65).foldl
        (fun acc k => acc.add
          ((((bankAt s.inst.wfBuf i).at k).re.mul ((bankAt s.inst.wfBuf i).at k).re).add
            (((bankAt s.inst.wfBuf i).at k).im.mul ((bankAt s.inst.wfBuf i).at k).im))) F32.zero
     (s.inst.delayEstCtr ≠ 0 → t.inst.delayIdx = s.inst.delayIdx) ∧
     (s.inst.delayEstCtr = 0 → t.inst.delayIdx < s.cfg.nrPart) ∧
     (s.inst.delayEstCtr = 0 → (∃ i, i < s.cfg.nrPart ∧ (energyOf i).gt F32.zero = true) →
       (energyOf t.inst.delayIdx).gt F32.zero = true ∧
       (∀ i, i < s.cfg.nrPart → (energyOf i).gt (energyOf t.inst.delayIdx) = false) ∧
       (∀ i, i < t.inst.delayIdx → (energyOf t.inst.delayIdx).le (energyOf i) = false)) ∧
     (s.inst.delayEstCtr = 0 → (∀ i, i < s.cfg.nrPart → (energyOf i).gt F32.zero = false) →
       t.inst.delayIdx = 0)) ∧
    s.StageEnds t
      { s.inst with
        delayIdx := t.inst.delayIdx
        delayEstCtr := (s.inst.delayEstCtr + 1) % (10 * s.inst.mult) } s.blk 16

/-- N_WINDOW transforms the far, near and error histories under the window, rising over the old half and falling
over the new one, and takes the far spectrum of the delay index (R192). -/
def Obligations.NWindowResult : Prop :=
  ∀ s : State, s.inst.xfwBuf.length = s.cfg.nrPart → ∃ t, exec .nWindow s = .next t ∧
    (∀ fx fd fe : Time,
      (∀ n : Fin 64,
        fx[n.val] = s.inst.xBuf[n.val].mul s.cfg.win[n.val] ∧
        fx[64 + n.val] = s.inst.xBuf[64 + n.val].mul s.cfg.win[64 - n.val] ∧
        fd[n.val] = s.inst.dBuf[n.val].mul s.cfg.win[n.val] ∧
        fd[64 + n.val] = s.inst.dBuf[64 + n.val].mul s.cfg.win[64 - n.val] ∧
        fe[n.val] = s.inst.eBuf[n.val].mul s.cfg.win[n.val] ∧
        fe[64 + n.val] = s.inst.eBuf[64 + n.val].mul s.cfg.win[64 - n.val]) →
      bankAt t.inst.xfwBuf 0 = Num.fwdReal fx ∧ t.blk.dfw = Num.fwdReal fd ∧ t.blk.efw = Num.fwdReal fe) ∧
    (∀ p, p ≠ 0 → bankAt t.inst.xfwBuf p = bankAt s.inst.xfwBuf p) ∧
    t.inst.xfwBuf.length = s.cfg.nrPart ∧
    t.blk.xfw = bankAt t.inst.xfwBuf s.inst.delayIdx ∧
    s.StageEnds t
      { s.inst with xfwBuf := t.inst.xfwBuf }
      { s.blk with xfw := t.blk.xfw, dfw := t.blk.dfw, efw := t.blk.efw } 17

/-- N_PSD smooths the five spectra with the coefficients of the rate and sums the near and the error power after
the update, bin 0 first (R194; the floor of the far power the spec marks as general knowledge). -/
def Obligations.NPsdResult : Prop :=
  ∀ s : State, ∃ t, exec .nPsd s = .next t ∧
    (let g0 := if s.inst.mult = 1 then s.cfg.gCohOld.at1 else s.cfg.gCohOld.at2
     let g1 := if s.inst.mult = 1 then s.cfg.gCohNew.at1 else s.cfg.gCohNew.at2
     ∀ k : Fin 65,
      let d := s.blk.dfw[k]
      let e := s.blk.efw[k]
      let x := s.blk.xfw[k]
      let powX := (x.re.mul x.re).add (x.im.mul x.im)
      t.inst.sd[k] = (g0.mul s.inst.sd[k]).add (g1.mul ((d.re.mul d.re).add (d.im.mul d.im))) ∧
      t.inst.se[k] = (g0.mul s.inst.se[k]).add (g1.mul ((e.re.mul e.re).add (e.im.mul e.im))) ∧
      t.inst.sx[k] = (g0.mul s.inst.sx[k]).add
        (g1.mul (if powX.gt s.cfg.sxFloor then powX else s.cfg.sxFloor)) ∧
      t.inst.sde[k] =
        ⟨(g0.mul s.inst.sde[k].re).add (g1.mul ((d.re.mul e.re).add (d.im.mul e.im))),
          (g0.mul s.inst.sde[k].im).add (g1.mul ((d.re.mul e.im).sub (d.im.mul e.re)))⟩ ∧
      t.inst.sxd[k] =
        ⟨(g0.mul s.inst.sxd[k].re).add (g1.mul ((d.re.mul x.re).add (d.im.mul x.im))),
          (g0.mul s.inst.sxd[k].im).add (g1.mul ((d.re.mul x.im).sub (d.im.mul x.re)))⟩) ∧
    t.blk.sdSum = t.inst.sd.toList.foldl F32.add F32.zero ∧
    t.blk.seSum = t.inst.se.toList.foldl F32.add F32.zero ∧
    s.StageEnds t
      { s.inst with sd := t.inst.sd, se := t.inst.se, sx := t.inst.sx, sde := t.inst.sde, sxd := t.inst.sxd }
      { s.blk with sdSum := t.blk.sdSum, seSum := t.blk.seSum } 18

/-- N_COHERENCE forms the two coherences of every bin, the denominators guarded by EPS (R196). -/
def Obligations.NCoherenceResult : Prop :=
  ∀ s : State, ∃ t, exec .nCoherence s = .next t ∧
    (∀ k : Fin 65,
      t.blk.cohde[k] =
        ((s.inst.sde[k].re.mul s.inst.sde[k].re).add (s.inst.sde[k].im.mul s.inst.sde[k].im)).div
          ((s.inst.sd[k].mul s.inst.se[k]).add Lit.eps) ∧
      t.blk.cohxd[k] =
        ((s.inst.sxd[k].re.mul s.inst.sxd[k].re).add (s.inst.sxd[k].im.mul s.inst.sxd[k].im)).div
          ((s.inst.sx[k].mul s.inst.sd[k]).add Lit.eps)) ∧
    s.StageEnds t s.inst { s.blk with cohde := t.blk.cohde, cohxd := t.blk.cohxd } 20

/-- N_CLASSIFY averages the coherences over the preferred band, lowers the minimum of the inverse far-near
coherence and sets the near-end flag with its hysteresis, for legal parameters (R198, R202, R204; the extra
condition on the minimum and the hysteresis the spec marks as general knowledge). -/
def Obligations.NClassifyResult : Prop :=
  ∀ s : State, s.cfg.Legal → ∃ t, exec .nClassify s = .next t ∧
    (let lo := if s.inst.mult = 1 then s.cfg.prefMin.at1 else s.cfg.prefMin.at2
     let n := if s.inst.mult = 1 then s.cfg.prefSize.at1 else s.cfg.prefSize.at2
     let mean := fun v : Bins =>
       (((v.toList.drop lo).take n).foldl F32.add F32.zero).div (F32.ofInt n)
     t.blk.hNlDeAvg = mean s.blk.cohde ∧ t.blk.hNlXdAvg = Lit.one.sub (mean s.blk.cohxd)) ∧
    t.inst.hNlXdAvgMin =
      (if t.blk.hNlXdAvg.lt s.cfg.thXdMin = true ∧ t.blk.hNlXdAvg.lt s.inst.hNlXdAvgMin = true then
        t.blk.hNlXdAvg else s.inst.hNlXdAvgMin) ∧
    t.inst.stNearState =
      (if t.blk.hNlDeAvg.gt s.cfg.thNearDeOn = true ∧ t.blk.hNlXdAvg.gt s.cfg.thNearXdOn = true then true
      else if t.blk.hNlDeAvg.lt s.cfg.thNearDeOff = true ∨ t.blk.hNlXdAvg.lt s.cfg.thNearXdOff = true then false
      else s.inst.stNearState) ∧
    s.StageEnds t
      { s.inst with hNlXdAvgMin := t.inst.hNlXdAvgMin, stNearState := t.inst.stNearState }
      { s.blk with hNlDeAvg := t.blk.hNlDeAvg, hNlXdAvg := t.blk.hNlXdAvg } 21

/-- N_GAIN: the gain candidate of the three modes, clamped to [0, 1]; the echo flag and the overdrive reset; the
feedback scalars, in the third mode the 75th and 50th percentile of the preferred band sorted into non-decreasing
order, for legal parameters (R206; the overdrive reset the spec marks as general knowledge). -/
def Obligations.NGainResult : Prop :=
  ∀ s : State, s.cfg.Legal → ∃ t, exec .nGain s = .next t ∧
    (let quiet := s.inst.hNlXdAvgMin.eq Lit.one
     let near := s.inst.stNearState
     (∀ k : Fin 65,
       let x := Lit.one.sub s.blk.cohxd[k]
       let h := if near = true then s.blk.cohde[k]
         else if quiet = true then x
         else if s.blk.cohde[k].lt x then s.blk.cohde[k] else x
       let h0 := if h.gt F32.zero then h else F32.zero
       t.blk.hNl[k] = if h0.lt Lit.one then h0 else Lit.one) ∧
     t.inst.echoState = (!quiet && !near) ∧
     t.inst.overDrive = (if quiet = true then s.inst.minOverDrive else s.inst.overDrive) ∧
     (near = true → t.blk.hNlFb = s.blk.hNlDeAvg ∧ t.blk.hNlFbLow = s.blk.hNlDeAvg) ∧
     (near = false → quiet = true → t.blk.hNlFb = s.blk.hNlXdAvg ∧ t.blk.hNlFbLow = s.blk.hNlXdAvg) ∧
     (near = false → quiet = false →
       let lo := if s.inst.mult = 1 then s.cfg.prefMin.at1 else s.cfg.prefMin.at2
       let n := if s.inst.mult = 1 then s.cfg.prefSize.at1 else s.cfg.prefSize.at2
       ∃ P : List F32, P.Perm ((t.blk.hNl.toList.drop lo).take n) ∧ P.length = n ∧
         P.Pairwise (fun a b => b.lt a = false) ∧
         P[3 * (n - 1) / 4]? = some t.blk.hNlFb ∧ P[(n - 1) / 2]? = some t.blk.hNlFbLow)) ∧
    s.StageEnds t
      { s.inst with echoState := t.inst.echoState, overDrive := t.inst.overDrive }
      { s.blk with hNl := t.blk.hNl, hNlFb := t.blk.hNlFb, hNlFbLow := t.blk.hNlFbLow } 22

/-- Suppression gain bounds: after N_GAIN every gain lies in [0, 1]; N_SUPPRESS keeps a bin's gain in [0, 1] where
the blend toward the feedback scalar does and the exponent is positive (R206, R214; spec/00_scope.md R17 N3). -/
def Obligations.SuppressionGainBounds : Prop :=
  ∀ s : State,
    (∃ t, exec .nGain s = .next t ∧ ∀ k : Fin 65, t.blk.hNl[k].inUnit = true) ∧
    (∃ t, exec .nSuppress s = .next t ∧ ∀ k : Fin 65,
      (s.inst.overDriveSm.mul s.cfg.overdriveCurve[k]).gt F32.zero = true →
      (((s.blk.hNl[k].gt s.blk.hNlFb) = false ∧ s.blk.hNl[k].inUnit = true) ∨
        ((s.blk.hNl[k].gt s.blk.hNlFb) = true ∧
          ((s.cfg.weightCurve[k].mul s.blk.hNlFb).add
            ((Lit.one.sub s.cfg.weightCurve[k]).mul s.blk.hNl[k])).inUnit = true)) →
      t.blk.hNl[k].inUnit = true)

/-- N_OVERDRIVE: a new local minimum restarts the count; both minima rise, at most to 1; a minimum that has
persisted for two blocks recomputes the overdrive, at least the minimum one; the smoothed overdrive follows with the
slow blend in the direction of OD_SLOW_ON (R208 to R211; the extra condition of R208 the spec marks as general
knowledge). -/
def Obligations.NOverdriveResult : Prop :=
  ∀ s : State, ∃ t, exec .nOverdrive s = .next t ∧
    (let x := s.inst
     let y := t.inst
     let low := s.blk.hNlFbLow
     let riseFb := if x.mult = 1 then s.cfg.riseFb.at1 else s.cfg.riseFb.at2
     let riseXd := if x.mult = 1 then s.cfg.riseXd.at1 else s.cfg.riseXd.at2
     let found : Prop := low.lt s.cfg.thFbMin = true ∧ low.lt x.hNlFbLocalMin = true
     let upFb := (if found then low else x.hNlFbLocalMin).add riseFb
     let upXd := x.hNlXdAvgMin.add riseXd
     let ctr := if found then 1 else if x.hNlNewMin then x.hNlMinCtr + 1 else x.hNlMinCtr
     let quotient := x.targetSupp.div ((Num.log (y.hNlFbMin.add Lit.eps)).add Lit.eps)
     y.hNlFbLocalMin = (if upFb.lt Lit.one then upFb else Lit.one) ∧
     y.hNlXdAvgMin = (if upXd.lt Lit.one then upXd else Lit.one) ∧
     y.hNlFbMin = (if found then low else x.hNlFbMin) ∧
     (ctr = 2 → y.hNlNewMin = false ∧ y.hNlMinCtr = 0 ∧
       y.overDrive = (if quotient.gt x.minOverDrive then quotient else x.minOverDrive)) ∧
     (ctr ≠ 2 → (y.hNlNewMin = true ↔ found ∨ x.hNlNewMin = true) ∧ y.hNlMinCtr = ctr ∧
       y.overDrive = x.overDrive) ∧
     y.overDriveSm =
       (if (s.cfg.odSlowOn = .decrease ∧ y.overDrive.lt x.overDriveSm = true) ∨
           (s.cfg.odSlowOn = .increase ∧ y.overDrive.lt x.overDriveSm = false) then
         (Lit.c0_99.mul x.overDriveSm).add (Lit.c0_01.mul y.overDrive)
       else (Lit.c0_9.mul x.overDriveSm).add (Lit.c0_1.mul y.overDrive)) ∧
     s.StageEnds t
       { x with
         hNlFbLocalMin := y.hNlFbLocalMin, hNlXdAvgMin := y.hNlXdAvgMin, hNlFbMin := y.hNlFbMin
         hNlNewMin := y.hNlNewMin, hNlMinCtr := y.hNlMinCtr, overDrive := y.overDrive
         overDriveSm := y.overDriveSm } s.blk 23)

/-- N_SUPPRESS blends a gain above the feedback scalar toward it, raises it to the overdrive's power and
multiplies the error spectrum by it (R214). -/
def Obligations.NSuppressResult : Prop :=
  ∀ s : State, ∃ t, exec .nSuppress s = .next t ∧
    (∀ k : Fin 65,
      let h := s.blk.hNl[k]
      let wt := s.cfg.weightCurve[k]
      let b := if h.gt s.blk.hNlFb then (wt.mul s.blk.hNlFb).add ((Lit.one.sub wt).mul h) else h
      t.blk.hNl[k] = Num.pow b (s.inst.overDriveSm.mul s.cfg.overdriveCurve[k]) ∧
      t.blk.efw[k] = ⟨t.blk.hNl[k].mul s.blk.efw[k].re, t.blk.hNl[k].mul s.blk.efw[k].im⟩) ∧
    s.StageEnds t s.inst { s.blk with hNl := t.blk.hNl, efw := t.blk.efw } 24

/-! ### Comfort noise and output (spec/43_comfort_noise_output.md) -/

/-- N_COMFORT adds to every bin noise of random phase, the more the more was suppressed, none in bin 0 and a real
one in bin 64, forms the high band's noise spectrum, and advances the seed; with comfort noise disabled it does
nothing of this (R230, R232, R236; the treatment of bins 0 and 64 and the sign the spec marks as general
knowledge; the generator is log 11). -/
def Obligations.NComfortResult : Prop :=
  ∀ s : State, s.cfg.Legal → ∃ t, exec .nComfort s = .next t ∧
    (let noise := fun k : Fin 65 => if s.inst.noiseSel then s.inst.dMinPow[k] else s.inst.dInitMinPow[k]
     let theta := fun k : Nat =>
       Lit.twoPi.mul ((F32.ofInt (Num.rand s.inst.seed 64 (k - 1))).div Lit.c32768)
     let weight := fun k : Fin 65 =>
       let v := Lit.one.sub (s.blk.hNl[k].mul s.blk.hNl[k])
       (if v.gt F32.zero then v else F32.zero).sqrt
     let m := s.cfg.hbAvgHi + 1 - s.cfg.hbAvgLo
     let mean := fun v : Bins =>
       (((v.toList.drop s.cfg.hbAvgLo).take m).foldl F32.add F32.zero).div (F32.ofInt m)
     (s.cfg.cnEn = false → t.blk.efw = s.blk.efw ∧ t.inst.seed = s.inst.seed) ∧
     (s.cfg.cnEn = true →
       t.inst.seed = Num.randSeed s.inst.seed 64 ∧
       ∀ k : Fin 65,
         let nz := (noise k).sqrt
         let re := if k.val = 0 then F32.zero else nz.mul (Num.cos (theta k))
         let im := if k.val = 0 ∨ k.val = 64 then F32.zero
           else (F32.zero.sub nz).mul (Num.sin (theta k))
         t.blk.efw[k] = ⟨s.blk.efw[k].re.add ((weight k).mul re), s.blk.efw[k].im.add ((weight k).mul im)⟩) ∧
     (¬(s.inst.wide ∧ s.cfg.cnEn = true ∧ s.cfg.hbCnEn = true) → ∀ k : Fin 65, t.blk.cnH[k] = C32.zero) ∧
     (s.inst.wide ∧ s.cfg.cnEn = true ∧ s.cfg.hbCnEn = true →
       let nAvg := mean (Vector.ofFn fun k => (noise k).sqrt)
       let wAvg := mean (Vector.ofFn weight)
       ∀ k : Fin 65, t.blk.cnH[k] =
         ⟨if k.val = 0 then F32.zero else wAvg.mul (nAvg.mul (Num.cos (theta k))),
           if k.val = 0 ∨ k.val = 64 then F32.zero
           else wAvg.mul ((F32.zero.sub nAvg).mul (Num.sin (theta k)))⟩)) ∧
    s.StageEnds t { s.inst with seed := t.inst.seed } { s.blk with efw := t.blk.efw, cnH := t.blk.cnH } 25

/-- N_SYNTH overlaps and saturates the inverse transform and saves its tail; a NaN at element n ends the command
with ERR_NUMERIC, the tail below n already written (R240; spec/60_exceptions.md R312, R318; that the elements below
n stay written is log 18). -/
def Obligations.NSynthResult : Prop :=
  ∀ s : State, ∃ t, exec .nSynth s = .next t ∧
    (let v := Num.invReal s.blk.efw
     let o := fun n : Fin 64 =>
       ((v[n.val].mul Lit.ifftScale).mul s.cfg.win[n.val]).add s.inst.outBuf[n]
     let tail := fun n : Fin 64 => (v[64 + n.val].mul Lit.ifftScale).mul s.cfg.win[64 - n.val]
     ((∀ n : Fin 64, (o n).isNaN = false) →
       (∀ n : Fin 64, sat16 (o n) = some t.blk.outBl[n] ∧ t.inst.outBuf[n] = tail n) ∧
       s.StageEnds t { s.inst with outBuf := t.inst.outBuf } { s.blk with outBl := t.blk.outBl } 26) ∧
     (∀ n : Fin 64, (o n).isNaN = true → (∀ m : Fin 64, m < n → (o m).isNaN = false) →
       (∀ m : Fin 64, t.inst.outBuf[m] = if m < n then tail m else s.inst.outBuf[m]) ∧
       s.FaultEnds t .numeric s.life { s.inst with outBuf := t.inst.outBuf } s.draws))

/-- N_HIGHBAND at 32000 Hz scales the previous block's high-band samples by the mean gain, adds the scaled comfort
noise where it is enabled, and saturates; a NaN ends the command with ERR_NUMERIC; at other rates it does nothing,
for legal parameters (R242, spec/60_exceptions.md R318; that the old half is used the spec marks as its own
inference). -/
def Obligations.NHighbandResult : Prop :=
  ∀ s : State, s.cfg.Legal → ∃ t, exec .nHighband s = .next t ∧
    (let m := s.cfg.hbAvgHi + 1 - s.cfg.hbAvgLo
     let gain := (((s.blk.hNl.toList.drop s.cfg.hbAvgLo).take m).foldl F32.add F32.zero).div (F32.ofInt m)
     let o := fun n : Fin 64 =>
       let scaled := s.inst.dBufH[n.val].mul gain
       if s.cfg.cnEn = true ∧ s.cfg.hbCnEn = true then
         scaled.add (s.cfg.cnScaleHband.mul ((Num.invReal s.blk.cnH)[n.val].mul Lit.ifftScale))
       else scaled
     (¬s.inst.wide → s.StageEnds t s.inst s.blk 27) ∧
     (s.inst.wide → (∀ n : Fin 64, (o n).isNaN = false) →
       (∀ n : Fin 64, sat16 (o n) = some t.blk.outBlH[n]) ∧
       s.StageEnds t s.inst { s.blk with outBlH := t.blk.outBlH } 27) ∧
     (s.inst.wide → (∃ n : Fin 64, (o n).isNaN = true) →
       s.FaultEnds t .numeric s.life s.inst s.draws))

/-- N_SHIFT copies the new half of every history to its old half and ages the windowed far spectra by one block
(R244, which the spec marks as derived). -/
def Obligations.NShiftResult : Prop :=
  ∀ s : State, s.inst.xfwBuf.length = s.cfg.nrPart → ∃ t, exec .nShift s = .next t ∧
    (∀ n : Fin 64,
      t.inst.xBuf[n.val] = s.inst.xBuf[64 + n.val] ∧ t.inst.xBuf[64 + n.val] = s.inst.xBuf[64 + n.val] ∧
      t.inst.dBuf[n.val] = s.inst.dBuf[64 + n.val] ∧ t.inst.dBuf[64 + n.val] = s.inst.dBuf[64 + n.val] ∧
      t.inst.eBuf[n.val] = s.inst.eBuf[64 + n.val] ∧ t.inst.eBuf[64 + n.val] = s.inst.eBuf[64 + n.val] ∧
      (s.inst.wide → t.inst.dBufH[n.val] = s.inst.dBufH[64 + n.val] ∧
        t.inst.dBufH[64 + n.val] = s.inst.dBufH[64 + n.val])) ∧
    (¬s.inst.wide → t.inst.dBufH = s.inst.dBufH) ∧
    bankAt t.inst.xfwBuf 0 = bankAt s.inst.xfwBuf 0 ∧
    (∀ j, 1 ≤ j → j < s.cfg.nrPart → bankAt t.inst.xfwBuf j = bankAt s.inst.xfwBuf (j - 1)) ∧
    t.inst.xfwBuf.length = s.cfg.nrPart ∧
    s.StageEnds t
      { s.inst with
        xBuf := t.inst.xBuf, dBuf := t.inst.dBuf, eBuf := t.inst.eBuf, dBufH := t.inst.dBufH
        xfwBuf := t.inst.xfwBuf } s.blk 28

/-! ### The metrics (spec/45_metrics.md) -/

/-- M_UPDATE, the trackers: with metrics disabled nothing changes; enabled, the far, near, linear-output and
nonlinear-output trackers take the block's four signals, and only the metrics change (R282, R284; that a zero frame
level leaves the minimum alone the spec marks as general knowledge). -/
def Obligations.MUpdateTrackers : Prop :=
  ∀ s : State, ∃ t, exec .mUpdate s = .next t ∧
    (s.inst.metricsMode = false → t.inst = s.inst) ∧
    (s.inst.metricsMode = true →
      s.inst.farlevel.UpdatesTo t.inst.farlevel s.blk.farBl ∧
      s.inst.nearlevel.UpdatesTo t.inst.nearlevel s.blk.nearBl ∧
      s.inst.linoutlevel.UpdatesTo t.inst.linoutlevel s.blk.eSat ∧
      s.inst.nlpoutlevel.UpdatesTo t.inst.nlpoutlevel s.blk.outBl) ∧
    s.inst.SameAudio t.inst ∧ t.inst.metricsMode = s.inst.metricsMode ∧
    s.StageEnds t t.inst s.blk 29

/-- M_UPDATE, the statistics: at the end of a window of 200 blocks whose echo flag was set in more than 100 and
whose far end is active, ERL, A_NLP and ERLE are entered in their records; otherwise the records stay; RERL always
does; the echo counter counts and is cleared with the window (R290 to R298; the thresholds' direction, the form of
ERLE and of the means the spec marks as general knowledge). -/
def Obligations.MUpdateStatistics : Prop :=
  ∀ s : State, s.inst.metricsMode = true → ∃ t, exec .mUpdate s = .next t ∧
    (let x := s.inst
     let y := t.inst
     let fresh : Prop := x.farlevel.sfrcounter + 1 = 4 ∧ x.farlevel.frcounter + 1 = 50
     let ctr := x.stateCounter + (if x.echoState then 1 else 0)
     let act := if y.farlevel.minlevel.lt s.cfg.noisyPower then s.cfg.actClean else s.cfg.actNoisy
     let db := fun a b : F32 => Lit.ten.mul (Num.log10 ((a.div b).add Lit.eps))
     let above := fun l : Level => l.averagelevel.sub (s.cfg.safety.mul l.minlevel)
     let passes : Prop := fresh ∧ 100 < ctr ∧ y.farlevel.averagelevel.gt (act.mul y.farlevel.minlevel) = true
     y.stateCounter = (if fresh then 0 else ctr) ∧
     (passes →
       x.erl.UpdatesTo y.erl (db y.farlevel.averagelevel y.nearlevel.averagelevel) ∧
       x.aNlp.UpdatesTo y.aNlp (db y.nearlevel.averagelevel y.linoutlevel.averagelevel) ∧
       x.erle.UpdatesTo y.erle (db (above y.nearlevel) (above y.nlpoutlevel))) ∧
     (¬passes → y.erl = x.erl ∧ y.aNlp = x.aNlp ∧ y.erle = x.erle) ∧ y.rerl = x.rerl)

/-! ### The whole machine -/

/-- The stage sequence: a stage that ends leaves SEQ at its successor in R108's table; stage 4 chooses between 5
and 30, stage 29 returns to 4, stage 31 ends the command, and stages 25 and 26 may end it with a fault (R108, R109,
spec/60_exceptions.md R318). -/
def Obligations.StageSuccessors : Prop :=
  ∀ s t : State, s.seq ≠ 0 → exec (decodeStage s.seq) s = .next t →
    (s.seq = 4 → t.seq = if 64 ≤ s.inst.farFr.length then 5 else 30) ∧
    (s.seq = 29 → t.seq = 4) ∧
    (s.seq = 31 → t.seq = 0 ∧ t.done = true) ∧
    (s.seq = 25 ∨ s.seq = 26 → t.seq = s.seq + 1 ∨ (t.seq = 0 ∧ t.fault = true ∧ t.done = false)) ∧
    (s.seq ≠ 4 → s.seq ≠ 25 → s.seq ≠ 26 → s.seq ≠ 29 → s.seq ≠ 31 → t.seq = s.seq + 1)

/-- The invariants below, and the alignment law, hold right after reset (spec/70_reset_and_hazards.md R340). -/
def Obligations.InvariantsAtReset : Prop :=
  State.reset.Inv ∧ State.reset.Aligned ∧ State.reset.PowersInv

/-- Every step keeps the invariant: the memory is canonical; while the filter exists its arrays have their lengths,
cursors and indices lie in range, no queue exceeds its capacity, the overdrive is at least its minimum, the two
rising minima are at most 1, the counters and the known delay lie in their ranges; in READY the constants are those
of the rate; a command runs only in READY; ERR is 0 until the first fault (spec/10_state.md R25, R27, R31, R48;
spec/47_numerics_and_access.md R370). -/
def Obligations.StepKeepsInv : Prop :=
  ∀ s t : State, s.Inv → step s = .next t → t.Inv

/-- The smoothed powers never become negative: every step keeps it, for parameters that are not negative
(spec/10_state.md R48 I-c; spec/42_suppressor.md R194; a NaN of this model has its sign bit clear, log 7). -/
def Obligations.StepKeepsPowersNonneg : Prop :=
  ∀ s t : State, s.PowersInv → step s = .next t → t.PowersInv

/-- The metrics never feed back: of two states that agree in all but the metrics and the METRICS window, every
operation leaves two such states or stops alike; such states show the host the same output samples; and enabling or
disabling the metrics changes nothing else (R304). -/
def Obligations.MetricsNeverFeedBack : Prop :=
  (∀ (i : Instr) (s t : State), s.SameAudioBytes t →
    sameOutcome State.SameAudioBytes (exec i s) (exec i t)) ∧
  (∀ s t : State, s.SameAudioBytes t → ∀ a, (0x400 ≤ a ∧ a < 0x450) ∨ (0x500 ≤ a ∧ a < 0x550) →
    s.hostWord a = t.hostWord a) ∧
  (∀ (s : State) (e : Bool), s.life = .ready →
    ∃ t, exec (.setMetrics e) s = .next t ∧ (complete s).SameAudioBytes t)

/-- No result depends on the kernel selector: every operation but the three that write it gives the same outcome
under either kernel, but for the selector itself (spec/41_adaptive_filter.md R178, spec/44_frame_api.md R256). -/
def Obligations.KernelSelectorNoEffect : Prop :=
  ∀ (i : Instr) (s : State) (k : Bool), i ≠ .create → i ≠ .destroy → (∀ rate, i ≠ .init rate) →
    exec i (s.withKernel k) = mapNext (fun t => t.withKernel k) (exec i s)

/-- Which operation changes which window: only F_POP_OUT and GET_METRICS change any byte, the first only OUT and
OUTH (and OUTH only at 32000 Hz), the second only METRICS; no operation changes an input window (R73). -/
def Obligations.WindowsWrittenOnlyBy : Prop :=
  ∀ (i : Instr) (s t : State), exec i s = .next t →
    (i ≠ .fPopOut → i ≠ .getMetrics → s.SameBytes t) ∧
    (i = .fPopOut → ∀ a, ¬(4 * 0x400 ≤ a ∧ a < 4 * 0x450) → ¬(s.inst.wide ∧ 4 * 0x500 ≤ a ∧ a < 4 * 0x550) →
      t.byteAt a = s.byteAt a) ∧
    (i = .getMetrics → ∀ a, ¬(4 * 0x600 ≤ a ∧ a < 4 * 0x614) → t.byteAt a = s.byteAt a)
end

