-- ==== Sys2Proof/Laws/State.lean ====
section
/-! SUPPORT. The fields of a state after each update, one lemma per field per update. -/

namespace Sys2Proof.Machine

/-! ### setInst -/

@[simp] theorem State.setInst_cfg (s : State) (x : Inst) : (s.setInst x).cfg = s.cfg := rfl
@[simp] theorem State.setInst_life (s : State) (x : Inst) : (s.setInst x).life = s.life := rfl
@[simp] theorem State.setInst_fault (s : State) (x : Inst) : (s.setInst x).fault = s.fault := rfl
@[simp] theorem State.setInst_done (s : State) (x : Inst) : (s.setInst x).done = s.done := rfl
@[simp] theorem State.setInst_err (s : State) (x : Inst) : (s.setInst x).err = s.err := rfl
@[simp] theorem State.setInst_cmd (s : State) (x : Inst) : (s.setInst x).cmd = s.cmd := rfl
@[simp] theorem State.setInst_seq (s : State) (x : Inst) : (s.setInst x).seq = s.seq := rfl
@[simp] theorem State.setInst_inst (s : State) (x : Inst) : (s.setInst x).inst = x := rfl
@[simp] theorem State.setInst_blk (s : State) (x : Inst) : (s.setInst x).blk = s.blk := rfl
@[simp] theorem State.setInst_mem (s : State) (x : Inst) : (s.setInst x).mem = s.mem := rfl
@[simp] theorem State.setInst_memEpoch (s : State) (x : Inst) : (s.setInst x).memEpoch = s.memEpoch := rfl
@[simp] theorem State.setInst_draws (s : State) (x : Inst) : (s.setInst x).draws = s.draws := rfl
@[simp] theorem State.setInst_hostQ (s : State) (x : Inst) : (s.setInst x).hostQ = s.hostQ := rfl
@[simp] theorem State.setInst_reply (s : State) (x : Inst) : (s.setInst x).reply = s.reply := rfl

/-! ### setBlk -/

@[simp] theorem State.setBlk_cfg (s : State) (b : Blk) : (s.setBlk b).cfg = s.cfg := rfl
@[simp] theorem State.setBlk_life (s : State) (b : Blk) : (s.setBlk b).life = s.life := rfl
@[simp] theorem State.setBlk_fault (s : State) (b : Blk) : (s.setBlk b).fault = s.fault := rfl
@[simp] theorem State.setBlk_done (s : State) (b : Blk) : (s.setBlk b).done = s.done := rfl
@[simp] theorem State.setBlk_err (s : State) (b : Blk) : (s.setBlk b).err = s.err := rfl
@[simp] theorem State.setBlk_cmd (s : State) (b : Blk) : (s.setBlk b).cmd = s.cmd := rfl
@[simp] theorem State.setBlk_seq (s : State) (b : Blk) : (s.setBlk b).seq = s.seq := rfl
@[simp] theorem State.setBlk_inst (s : State) (b : Blk) : (s.setBlk b).inst = s.inst := rfl
@[simp] theorem State.setBlk_blk (s : State) (b : Blk) : (s.setBlk b).blk = b := rfl
@[simp] theorem State.setBlk_mem (s : State) (b : Blk) : (s.setBlk b).mem = s.mem := rfl
@[simp] theorem State.setBlk_memEpoch (s : State) (b : Blk) : (s.setBlk b).memEpoch = s.memEpoch := rfl
@[simp] theorem State.setBlk_draws (s : State) (b : Blk) : (s.setBlk b).draws = s.draws := rfl
@[simp] theorem State.setBlk_hostQ (s : State) (b : Blk) : (s.setBlk b).hostQ = s.hostQ := rfl
@[simp] theorem State.setBlk_reply (s : State) (b : Blk) : (s.setBlk b).reply = s.reply := rfl

/-! ### setSeq -/

@[simp] theorem State.setSeq_cfg (s : State) (n : BitVec 5) : (s.setSeq n).cfg = s.cfg := rfl
@[simp] theorem State.setSeq_life (s : State) (n : BitVec 5) : (s.setSeq n).life = s.life := rfl
@[simp] theorem State.setSeq_fault (s : State) (n : BitVec 5) : (s.setSeq n).fault = s.fault := rfl
@[simp] theorem State.setSeq_done (s : State) (n : BitVec 5) : (s.setSeq n).done = s.done := rfl
@[simp] theorem State.setSeq_err (s : State) (n : BitVec 5) : (s.setSeq n).err = s.err := rfl
@[simp] theorem State.setSeq_cmd (s : State) (n : BitVec 5) : (s.setSeq n).cmd = s.cmd := rfl
@[simp] theorem State.setSeq_seq (s : State) (n : BitVec 5) : (s.setSeq n).seq = n := rfl
@[simp] theorem State.setSeq_inst (s : State) (n : BitVec 5) : (s.setSeq n).inst = s.inst := rfl
@[simp] theorem State.setSeq_blk (s : State) (n : BitVec 5) : (s.setSeq n).blk = s.blk := rfl
@[simp] theorem State.setSeq_mem (s : State) (n : BitVec 5) : (s.setSeq n).mem = s.mem := rfl
@[simp] theorem State.setSeq_memEpoch (s : State) (n : BitVec 5) : (s.setSeq n).memEpoch = s.memEpoch := rfl
@[simp] theorem State.setSeq_draws (s : State) (n : BitVec 5) : (s.setSeq n).draws = s.draws := rfl
@[simp] theorem State.setSeq_hostQ (s : State) (n : BitVec 5) : (s.setSeq n).hostQ = s.hostQ := rfl
@[simp] theorem State.setSeq_reply (s : State) (n : BitVec 5) : (s.setSeq n).reply = s.reply := rfl

/-! ### setLife -/

@[simp] theorem State.setLife_cfg (s : State) (l : Life) : (s.setLife l).cfg = s.cfg := rfl
@[simp] theorem State.setLife_life (s : State) (l : Life) : (s.setLife l).life = l := rfl
@[simp] theorem State.setLife_fault (s : State) (l : Life) : (s.setLife l).fault = s.fault := rfl
@[simp] theorem State.setLife_done (s : State) (l : Life) : (s.setLife l).done = s.done := rfl
@[simp] theorem State.setLife_err (s : State) (l : Life) : (s.setLife l).err = s.err := rfl
@[simp] theorem State.setLife_cmd (s : State) (l : Life) : (s.setLife l).cmd = s.cmd := rfl
@[simp] theorem State.setLife_seq (s : State) (l : Life) : (s.setLife l).seq = s.seq := rfl
@[simp] theorem State.setLife_inst (s : State) (l : Life) : (s.setLife l).inst = s.inst := rfl
@[simp] theorem State.setLife_blk (s : State) (l : Life) : (s.setLife l).blk = s.blk := rfl
@[simp] theorem State.setLife_mem (s : State) (l : Life) : (s.setLife l).mem = s.mem := rfl
@[simp] theorem State.setLife_memEpoch (s : State) (l : Life) : (s.setLife l).memEpoch = s.memEpoch := rfl
@[simp] theorem State.setLife_draws (s : State) (l : Life) : (s.setLife l).draws = s.draws := rfl
@[simp] theorem State.setLife_hostQ (s : State) (l : Life) : (s.setLife l).hostQ = s.hostQ := rfl
@[simp] theorem State.setLife_reply (s : State) (l : Life) : (s.setLife l).reply = s.reply := rfl

/-! ### setMem -/

@[simp] theorem State.setMem_cfg (s : State) (m : Memory) : (s.setMem m).cfg = s.cfg := rfl
@[simp] theorem State.setMem_life (s : State) (m : Memory) : (s.setMem m).life = s.life := rfl
@[simp] theorem State.setMem_fault (s : State) (m : Memory) : (s.setMem m).fault = s.fault := rfl
@[simp] theorem State.setMem_done (s : State) (m : Memory) : (s.setMem m).done = s.done := rfl
@[simp] theorem State.setMem_err (s : State) (m : Memory) : (s.setMem m).err = s.err := rfl
@[simp] theorem State.setMem_cmd (s : State) (m : Memory) : (s.setMem m).cmd = s.cmd := rfl
@[simp] theorem State.setMem_seq (s : State) (m : Memory) : (s.setMem m).seq = s.seq := rfl
@[simp] theorem State.setMem_inst (s : State) (m : Memory) : (s.setMem m).inst = s.inst := rfl
@[simp] theorem State.setMem_blk (s : State) (m : Memory) : (s.setMem m).blk = s.blk := rfl
@[simp] theorem State.setMem_mem (s : State) (m : Memory) : (s.setMem m).mem = m := rfl
@[simp] theorem State.setMem_memEpoch (s : State) (m : Memory) : (s.setMem m).memEpoch = s.memEpoch := rfl
@[simp] theorem State.setMem_draws (s : State) (m : Memory) : (s.setMem m).draws = s.draws := rfl
@[simp] theorem State.setMem_hostQ (s : State) (m : Memory) : (s.setMem m).hostQ = s.hostQ := rfl
@[simp] theorem State.setMem_reply (s : State) (m : Memory) : (s.setMem m).reply = s.reply := rfl

/-! ### drawn -/

@[simp] theorem State.drawn_cfg (s : State) : s.drawn.cfg = s.cfg := rfl
@[simp] theorem State.drawn_life (s : State) : s.drawn.life = s.life := rfl
@[simp] theorem State.drawn_fault (s : State) : s.drawn.fault = s.fault := rfl
@[simp] theorem State.drawn_done (s : State) : s.drawn.done = s.done := rfl
@[simp] theorem State.drawn_err (s : State) : s.drawn.err = s.err := rfl
@[simp] theorem State.drawn_cmd (s : State) : s.drawn.cmd = s.cmd := rfl
@[simp] theorem State.drawn_seq (s : State) : s.drawn.seq = s.seq := rfl
@[simp] theorem State.drawn_inst (s : State) : s.drawn.inst = s.inst := rfl
@[simp] theorem State.drawn_blk (s : State) : s.drawn.blk = s.blk := rfl
@[simp] theorem State.drawn_mem (s : State) : s.drawn.mem = s.mem := rfl
@[simp] theorem State.drawn_memEpoch (s : State) : s.drawn.memEpoch = s.memEpoch := rfl
@[simp] theorem State.drawn_draws (s : State) : s.drawn.draws = s.draws + 1 := rfl
@[simp] theorem State.drawn_hostQ (s : State) : s.drawn.hostQ = s.hostQ := rfl
@[simp] theorem State.drawn_reply (s : State) : s.drawn.reply = s.reply := rfl

/-! ### loseInst -/

@[simp] theorem State.loseInst_cfg (s : State) : s.loseInst.cfg = s.cfg := rfl
@[simp] theorem State.loseInst_life (s : State) : s.loseInst.life = s.life := rfl
@[simp] theorem State.loseInst_fault (s : State) : s.loseInst.fault = s.fault := rfl
@[simp] theorem State.loseInst_done (s : State) : s.loseInst.done = s.done := rfl
@[simp] theorem State.loseInst_err (s : State) : s.loseInst.err = s.err := rfl
@[simp] theorem State.loseInst_cmd (s : State) : s.loseInst.cmd = s.cmd := rfl
@[simp] theorem State.loseInst_seq (s : State) : s.loseInst.seq = s.seq := rfl
@[simp] theorem State.loseInst_inst (s : State) : s.loseInst.inst = Config.freeInst s.draws := rfl
@[simp] theorem State.loseInst_blk (s : State) : s.loseInst.blk = s.blk := rfl
@[simp] theorem State.loseInst_mem (s : State) : s.loseInst.mem = s.mem := rfl
@[simp] theorem State.loseInst_memEpoch (s : State) : s.loseInst.memEpoch = s.memEpoch := rfl
@[simp] theorem State.loseInst_draws (s : State) : s.loseInst.draws = s.draws + 1 := rfl
@[simp] theorem State.loseInst_hostQ (s : State) : s.loseInst.hostQ = s.hostQ := rfl
@[simp] theorem State.loseInst_reply (s : State) : s.loseInst.reply = s.reply := rfl

/-! ### raise -/

@[simp] theorem raise_cfg (s : State) (c : FaultCode) : (raise c s).cfg = s.cfg := rfl
@[simp] theorem raise_life (s : State) (c : FaultCode) : (raise c s).life = s.life := rfl
@[simp] theorem raise_fault (s : State) (c : FaultCode) : (raise c s).fault = true := rfl
@[simp] theorem raise_done (s : State) (c : FaultCode) : (raise c s).done = false := rfl
@[simp] theorem raise_err (s : State) (c : FaultCode) : (raise c s).err = if s.fault then s.err else errWord s.cmd c := rfl
@[simp] theorem raise_cmd (s : State) (c : FaultCode) : (raise c s).cmd = s.cmd := rfl
@[simp] theorem raise_seq (s : State) (c : FaultCode) : (raise c s).seq = 0 := rfl
@[simp] theorem raise_inst (s : State) (c : FaultCode) : (raise c s).inst = s.inst := rfl
@[simp] theorem raise_blk (s : State) (c : FaultCode) : (raise c s).blk = s.blk := rfl
@[simp] theorem raise_mem (s : State) (c : FaultCode) : (raise c s).mem = s.mem := rfl
@[simp] theorem raise_memEpoch (s : State) (c : FaultCode) : (raise c s).memEpoch = s.memEpoch := rfl
@[simp] theorem raise_draws (s : State) (c : FaultCode) : (raise c s).draws = s.draws := rfl
@[simp] theorem raise_hostQ (s : State) (c : FaultCode) : (raise c s).hostQ = s.hostQ := rfl
@[simp] theorem raise_reply (s : State) (c : FaultCode) : (raise c s).reply = s.reply := rfl

/-! ### complete -/

@[simp] theorem complete_cfg (s : State) : (complete s).cfg = s.cfg := rfl
@[simp] theorem complete_life (s : State) : (complete s).life = s.life := rfl
@[simp] theorem complete_fault (s : State) : (complete s).fault = s.fault := rfl
@[simp] theorem complete_done (s : State) : (complete s).done = true := rfl
@[simp] theorem complete_err (s : State) : (complete s).err = s.err := rfl
@[simp] theorem complete_cmd (s : State) : (complete s).cmd = s.cmd := rfl
@[simp] theorem complete_seq (s : State) : (complete s).seq = 0 := rfl
@[simp] theorem complete_inst (s : State) : (complete s).inst = s.inst := rfl
@[simp] theorem complete_blk (s : State) : (complete s).blk = s.blk := rfl
@[simp] theorem complete_mem (s : State) : (complete s).mem = s.mem := rfl
@[simp] theorem complete_memEpoch (s : State) : (complete s).memEpoch = s.memEpoch := rfl
@[simp] theorem complete_draws (s : State) : (complete s).draws = s.draws := rfl
@[simp] theorem complete_hostQ (s : State) : (complete s).hostQ = s.hostQ := rfl
@[simp] theorem complete_reply (s : State) : (complete s).reply = s.reply := rfl

/-! ### failLife -/

@[simp] theorem failLife_cfg (s : State) (c : FaultCode) : (failLife c s).cfg = s.cfg := rfl
@[simp] theorem failLife_life (s : State) (c : FaultCode) : (failLife c s).life = .failed := rfl
@[simp] theorem failLife_fault (s : State) (c : FaultCode) : (failLife c s).fault = true := rfl
@[simp] theorem failLife_done (s : State) (c : FaultCode) : (failLife c s).done = false := rfl
@[simp] theorem failLife_err (s : State) (c : FaultCode) : (failLife c s).err = if s.fault then s.err else errWord s.cmd c := rfl
@[simp] theorem failLife_cmd (s : State) (c : FaultCode) : (failLife c s).cmd = s.cmd := rfl
@[simp] theorem failLife_seq (s : State) (c : FaultCode) : (failLife c s).seq = 0 := rfl
@[simp] theorem failLife_inst (s : State) (c : FaultCode) : (failLife c s).inst = Config.freeInst s.draws := rfl
@[simp] theorem failLife_blk (s : State) (c : FaultCode) : (failLife c s).blk = s.blk := rfl
@[simp] theorem failLife_mem (s : State) (c : FaultCode) : (failLife c s).mem = s.mem := rfl
@[simp] theorem failLife_memEpoch (s : State) (c : FaultCode) : (failLife c s).memEpoch = s.memEpoch := rfl
@[simp] theorem failLife_draws (s : State) (c : FaultCode) : (failLife c s).draws = s.draws + 1 := rfl
@[simp] theorem failLife_hostQ (s : State) (c : FaultCode) : (failLife c s).hostQ = s.hostQ := rfl
@[simp] theorem failLife_reply (s : State) (c : FaultCode) : (failLife c s).reply = s.reply := rfl

/-! ### hardwareReset -/

@[simp] theorem hardwareReset_cfg (s : State) (simd : Bool) : (hardwareReset simd s).cfg = { s.cfg with simd := simd } := rfl
@[simp] theorem hardwareReset_life (s : State) (simd : Bool) : (hardwareReset simd s).life = .off := rfl
@[simp] theorem hardwareReset_fault (s : State) (simd : Bool) : (hardwareReset simd s).fault = false := rfl
@[simp] theorem hardwareReset_done (s : State) (simd : Bool) : (hardwareReset simd s).done = false := rfl
@[simp] theorem hardwareReset_err (s : State) (simd : Bool) : (hardwareReset simd s).err = 0 := rfl
@[simp] theorem hardwareReset_cmd (s : State) (simd : Bool) : (hardwareReset simd s).cmd = 0 := rfl
@[simp] theorem hardwareReset_seq (s : State) (simd : Bool) : (hardwareReset simd s).seq = 0 := rfl
@[simp] theorem hardwareReset_inst (s : State) (simd : Bool) : (hardwareReset simd s).inst = Config.freeInst s.draws := rfl
@[simp] theorem hardwareReset_blk (s : State) (simd : Bool) : (hardwareReset simd s).blk = s.blk := rfl
@[simp] theorem hardwareReset_mem (s : State) (simd : Bool) : (hardwareReset simd s).mem = [] := rfl
@[simp] theorem hardwareReset_memEpoch (s : State) (simd : Bool) : (hardwareReset simd s).memEpoch = s.draws + 1 := rfl
@[simp] theorem hardwareReset_draws (s : State) (simd : Bool) : (hardwareReset simd s).draws = s.draws + 1 := rfl
@[simp] theorem hardwareReset_hostQ (s : State) (simd : Bool) : (hardwareReset simd s).hostQ = s.hostQ := rfl
@[simp] theorem hardwareReset_reply (s : State) (simd : Bool) : (hardwareReset simd s).reply = s.reply := rfl

end Sys2Proof.Machine
end

