-- ==== Sys2Proof/Laws/Memory.lean ====
section
/-! SUPPORT. What the memory operations do, byte by byte, and that each keeps the canonical form. -/

namespace Sys2Proof.Machine

theorem Memory.read_write (m : Memory) (a : Nat) (b : Byte) (x : Nat) :
    (m.write a b).read x = if x = a then some b else m.read x := by
  induction m with
  | nil => simp [Memory.write, Memory.read, eq_comm]
  | cons c t ih =>
    obtain ⟨k, v⟩ := c
    simp only [Memory.write]
    split
    · by_cases h : x = a
      · simp [Memory.read, h]
      · simp [Memory.read, h, Ne.symm h]
    · split
      · rename_i _ h
        subst h
        by_cases h : x = a
        · simp [Memory.read, h]
        · simp [Memory.read, h, Ne.symm h]
      · rename_i h1 h2
        by_cases h : k = x
        · have : x ≠ a := by omega
          simp [Memory.read, h, this]
        · simp [Memory.read, h, ih]

theorem Memory.read_writeBytes (m : Memory) (a : Nat) (bs : List Byte) (x : Nat) :
    (m.writeBytes a bs).read x =
      if a ≤ x ∧ x < a + bs.length then bs[x - a]? else m.read x := by
  induction bs generalizing m a with
  | nil =>
    have : ¬(a ≤ x ∧ x < a + ([] : List Byte).length) := by simp
    rw [if_neg this]
    rfl
  | cons b t ih =>
    simp only [Memory.writeBytes, ih, Memory.read_write, List.length_cons]
    by_cases h : x = a
    · subst h
      simp
    · by_cases h2 : a + 1 ≤ x ∧ x < a + 1 + t.length
      · have h3 : a ≤ x ∧ x < a + (t.length + 1) := by omega
        have h4 : x - a = (x - (a + 1)) + 1 := by omega
        rw [if_pos h2, if_pos h3, h4, List.getElem?_cons_succ]
      · have h3 : ¬(a ≤ x ∧ x < a + (t.length + 1)) := by omega
        rw [if_neg h2, if_neg h3, if_neg h]

/-- Elements of at most four bytes touch only the words they are written to. -/
theorem Memory.read_writeElems_outside (m : Memory) (a : Nat) (es : List (List Byte)) (x : Nat)
    (hlen : ∀ e ∈ es, e.length ≤ 4) (hx : x < 4 * a ∨ 4 * (a + es.length) ≤ x) :
    (m.writeElems a es).read x = m.read x := by
  induction es generalizing m a with
  | nil => rfl
  | cons e t ih =>
    have he : e.length ≤ 4 := hlen e (by simp)
    have ht : ∀ e' ∈ t, e'.length ≤ 4 := fun e' h => hlen e' (by simp [h])
    simp only [List.length_cons] at hx
    rw [Memory.writeElems, ih _ _ ht (by omega), Memory.read_writeBytes, if_neg (by omega)]

/-- Byte `j` of element `i` reads back. -/
theorem Memory.read_writeElems_elem (m : Memory) (a : Nat) (es : List (List Byte)) (i j : Nat)
    (e : List Byte) (hlen : ∀ e ∈ es, e.length ≤ 4) (hi : es[i]? = some e) (hj : j < e.length) :
    (m.writeElems a es).read (4 * (a + i) + j) = e[j]? := by
  induction es generalizing m a i with
  | nil => simp at hi
  | cons e' t ih =>
    have ht : ∀ e' ∈ t, e'.length ≤ 4 := fun e' h => hlen e' (by simp [h])
    cases i with
    | zero =>
      obtain rfl : e' = e := by simpa using hi
      have he : e'.length ≤ 4 := hlen e' (by simp)
      rw [Memory.writeElems, Memory.read_writeElems_outside _ _ _ _ ht (by omega),
        Memory.read_writeBytes, if_pos (by omega)]
      congr 1
      omega
    | succ i =>
      have := ih (m.writeBytes (4 * a) e') (a + 1) i ht (by simpa using hi)
      rw [Memory.writeElems, ← this]
      congr 2
      omega

/-- A byte of an element's word above the element's own bytes is left alone. -/
theorem Memory.read_writeElems_gap (m : Memory) (a : Nat) (es : List (List Byte)) (i j : Nat)
    (e : List Byte) (hlen : ∀ e ∈ es, e.length ≤ 4) (hi : es[i]? = some e) (hj : e.length ≤ j)
    (hj4 : j < 4) : (m.writeElems a es).read (4 * (a + i) + j) = m.read (4 * (a + i) + j) := by
  induction es generalizing m a i with
  | nil => simp at hi
  | cons e' t ih =>
    have ht : ∀ e' ∈ t, e'.length ≤ 4 := fun e' h => hlen e' (by simp [h])
    cases i with
    | zero =>
      obtain rfl : e' = e := by simpa using hi
      rw [Memory.writeElems, Memory.read_writeElems_outside _ _ _ _ ht (by omega),
        Memory.read_writeBytes, if_neg (by omega)]
    | succ i =>
      have he : e'.length ≤ 4 := hlen e' (by simp)
      have h4 : 4 * (a + (i + 1)) + j = 4 * (a + 1 + i) + j := by omega
      rw [Memory.writeElems, h4, ih _ _ i ht (by simpa using hi), Memory.read_writeBytes,
        if_neg (by omega)]

/-! ### The canonical form is kept -/

theorem Memory.mem_write_key (m : Memory) (a : Nat) (b : Byte) (c : Host.Cell)
    (h : c ∈ m.write a b) : c.1 = a ∨ c ∈ m := by
  induction m with
  | nil =>
    obtain rfl : c = (a, b) := by simpa [Memory.write] using h
    exact .inl rfl
  | cons d t ih =>
    obtain ⟨k, v⟩ := d
    simp only [Memory.write] at h
    split at h
    · rcases List.mem_cons.1 h with rfl | h
      · exact .inl rfl
      · exact .inr h
    · split at h
      · rcases List.mem_cons.1 h with rfl | h
        · exact .inl rfl
        · exact .inr (List.mem_cons_of_mem _ h)
      · rcases List.mem_cons.1 h with rfl | h
        · exact .inr (by simp)
        · rcases ih h with h | h
          · exact .inl h
          · exact .inr (List.mem_cons_of_mem _ h)

theorem Memory.write_wf (m : Memory) (a : Nat) (b : Byte) (h : m.wf) : (m.write a b).wf := by
  induction m with
  | nil => simp [Memory.write]
  | cons d t ih =>
    obtain ⟨k, v⟩ := d
    have ht := List.pairwise_cons.1 h
    simp only [Memory.write]
    split
    · rename_i hak
      refine List.pairwise_cons.2 ⟨fun c hc => ?_, h⟩
      rcases List.mem_cons.1 hc with rfl | hc
      · exact hak
      · exact Nat.lt_trans hak (ht.1 c hc)
    · split
      · rename_i _ hak
        subst hak
        exact List.pairwise_cons.2 ⟨ht.1, ht.2⟩
      · refine List.pairwise_cons.2 ⟨fun c hc => ?_, ih ht.2⟩
        rcases Memory.mem_write_key t a b c hc with hc | hc
        · show k < c.1
          omega
        · exact ht.1 c hc

theorem Memory.writeBytes_wf (m : Memory) (a : Nat) (bs : List Byte) (h : m.wf) :
    (m.writeBytes a bs).wf := by
  induction bs generalizing m a with
  | nil => exact h
  | cons b t ih => exact ih _ _ (Memory.write_wf m a b h)

theorem Memory.writeElems_wf (m : Memory) (a : Nat) (es : List (List Byte)) (h : m.wf) :
    (m.writeElems a es).wf := by
  induction es generalizing m a with
  | nil => exact h
  | cons e t ih => exact ih _ _ (Memory.writeBytes_wf m _ e h)

theorem Memory.writeFrame_wf (m : Memory) (w : Win) (vs : List Sample) (h : m.wf) :
    (m.writeFrame w vs).wf := Memory.writeElems_wf m _ _ h

theorem State.hostStore_wf (s : State) (a : Nat) (w : Word) (h : s.mem.wf) :
    (s.hostStore a w).mem.wf := by
  unfold State.hostStore
  split
  · exact h
  · split
    · exact Memory.writeBytes_wf _ _ _ h
    · exact h

theorem reset_mem_wf : State.reset.mem.wf := List.Pairwise.nil

/-! ### Windows -/

/-- Equal storage of the windows reads the same everywhere. -/
theorem State.SameBytes.of_eq {s t : State} (h : t.mem = s.mem) (he : t.memEpoch = s.memEpoch) :
    s.SameBytes t := fun a => by simp [State.byteAt, h, he]

theorem State.winRead_eq_of_sameBytes {s t : State} (h : s.SameBytes t) (w : Win) (i : Nat) :
    t.winRead w i = s.winRead w i := by
  unfold State.winRead
  rw [h, h]

end Sys2Proof.Machine
end

