-- ==== Sys2Proof/Laws/Ops.lean ====
section
/-! SUPPORT. One lemma for each shared operation: what it answers, and all it can do. -/

namespace Sys2Proof

/-! ### Arrays -/

@[simp] theorem joinHalves_old (old new : Fin 64 → F32) (n : Fin 64) :
    oldHalf (joinHalves old new) n = old n := by
  simp [oldHalf, joinHalves]

@[simp] theorem joinHalves_new (old new : Fin 64 → F32) (n : Fin 64) :
    newHalf (joinHalves old new) n = new n := by
  simp [newHalf, joinHalves]

theorem Bins.at_lt (v : Bins) (k : Nat) (h : k < 65) : v.at k = v[k] := by
  simp [Bins.at, h]

theorem Spectrum.at_lt (v : Spectrum) (k : Nat) (h : k < 65) : v.at k = v[k] := by
  simp [Spectrum.at, h]

@[simp] theorem blockOf_getElem (l : List Sample) (i : Nat) (h : i < 64) :
    (blockOf l)[i] = l.getD i 0#16 := by
  simp [blockOf]

theorem blockOf_toList (b : Block16) : blockOf b.toList = b := by
  ext i h
  simp [blockOf]

theorem sumRange_zero (lo : Nat) (f : Nat → F32) : sumRange lo 0 f = F32.zero := rfl

theorem sumRange_succ (lo n : Nat) (f : Nat → F32) :
    sumRange lo (n + 1) f = (sumRange lo n f).add (f (lo + n)) := by
  simp [sumRange, List.range_succ]

@[simp] theorem Num.realEnds_im_zero (x : Spectrum) : (Num.realEnds x)[0].im = F32.zero := by
  simp [Num.realEnds]

@[simp] theorem Num.realEnds_im_last (x : Spectrum) : (Num.realEnds x)[64].im = F32.zero := by
  simp [Num.realEnds]

@[simp] theorem Params.nrPart_pos (p : Params) : 0 < p.nrPart := Nat.succ_pos _

@[simp] theorem Params.farBufLen_pos (p : Params) : 0 < p.farBufLen := by
  simp only [Params.farBufLen, FRAME_LEN]
  omega

namespace Machine

/-! ### Ring buffers -/

theorem rbWrite_eq_some {q vs r : List Sample} :
    rbWrite q vs = some r ↔ q.length + vs.length ≤ RB_CAP ∧ r = q ++ vs := by
  unfold rbWrite rbFill
  split <;> simp_all [eq_comm]

theorem rbRead_eq_some {q : List Sample} {n : Nat} {r : List Sample × List Sample} :
    rbRead q n = some r ↔ n ≤ q.length ∧ r = (q.take n, q.drop n) := by
  unfold rbRead rbFill
  split <;> simp_all [eq_comm]

theorem rbStuff_eq_some {q r : List Sample} {n : Nat} :
    rbStuff q n = some r ↔ q.length + n ≤ RB_CAP ∧ r = List.replicate n 0#16 ++ q := by
  unfold rbStuff rbFill
  split <;> simp_all [eq_comm]

theorem doneIf_eq_some {α : Type} {c : Bool} {d x : α} {r : Option α} :
    doneIf c d r = some x ↔ (c = true ∧ r = some x) ∨ (c = false ∧ x = d) := by
  cases c <;> simp [doneIf, eq_comm]

theorem rbWrite_fill {q vs r : List Sample} (h : rbWrite q vs = some r) :
    rbFill r = rbFill q + vs.length ∧ rbFill r ≤ RB_CAP := by
  obtain ⟨h1, rfl⟩ := rbWrite_eq_some.1 h
  simp [rbFill, h1]

theorem rbRead_fill {q : List Sample} {n : Nat} {r : List Sample × List Sample}
    (h : rbRead q n = some r) : r.1.length = n ∧ rbFill r.2 + n = rbFill q := by
  obtain ⟨h1, rfl⟩ := rbRead_eq_some.1 h
  simp only [rbFill, List.length_take, List.length_drop]
  omega

theorem rbStuff_fill {q r : List Sample} {n : Nat} (h : rbStuff q n = some r) :
    rbFill r = rbFill q + n ∧ rbFill r ≤ RB_CAP := by
  obtain ⟨h1, rfl⟩ := rbStuff_eq_some.1 h
  simp only [rbFill, List.length_append, List.length_replicate]
  omega

/-! ### The delay buffer -/

@[simp] theorem circWrite_length (n : Nat) (buf : List Sample) (c : Nat) (vs : List Sample) :
    (circWrite n buf c vs).length = buf.length := by
  induction vs generalizing buf c with
  | nil => rfl
  | cons v t ih => simp [circWrite, ih]

theorem shiftCursor_lt {n : Nat} (hn : 0 < n) (c : Nat) (d : Int) : shiftCursor n c d < n := by
  have h1 := Int.emod_nonneg ((c : Int) - d) (b := (n : Int)) (by omega)
  have h2 := Int.emod_lt_of_pos ((c : Int) - d) (b := (n : Int)) (by omega)
  unfold shiftCursor
  omega

theorem rotateBack_lt {n : Nat} (hn : 0 < n) (pos : Nat) : rotateBack n pos < n := by
  have h1 := Int.emod_nonneg ((pos : Int) - 1) (b := (n : Int)) (by omega)
  have h2 := Int.emod_lt_of_pos ((pos : Int) - 1) (b := (n : Int)) (by omega)
  unfold rotateBack
  omega

@[simp] theorem ageBank_length (b : List Spectrum) : (ageBank b).length = b.length := by
  cases b <;> simp [ageBank]

@[simp] theorem adaptBank_length (p : Params) (x : Inst) (ef : Spectrum) :
    (adaptBank p x ef).length = x.wfBuf.length := by
  simp [adaptBank]

/-! ### Commands that fail -/

/-- A failed CREATE or INIT keeps the parameters, the windows and what the host has in flight. -/
theorem failLife_keeps (c : FaultCode) (s : State) :
    (failLife c s).cfg = s.cfg ∧ (failLife c s).mem = s.mem ∧ (failLife c s).hostQ = s.hostQ :=
  ⟨rfl, rfl, rfl⟩

/-! ### Fetch and step -/

/-- All that a step can do. -/
theorem step_next_cases {s t : State} (h : step s = .next t) :
    (∃ i s', fetch s = .run i s' ∧ exec i s' = .next t) ∨ fetch s = .done t := by
  unfold step at h
  cases hf : fetch s with
  | run i s' => rw [hf] at h; exact .inl ⟨i, s', rfl, h⟩
  | done s' => rw [hf] at h; cases h; exact .inr rfl
  | fault r => rw [hf] at h; cases h
  | refuse r => rw [hf] at h; cases h

/-- All that a write to CMD can do. -/
theorem startCommand_cases (w : Word) (s : State) :
    (∃ i, decodeCommand w = .ok i ∧ startCommand w s = .run i { s with cmd := w, done := false }) ∨
    (decodeCommand w = .error .badOpcode ∧
      startCommand w s = .done (raise .opcode { s with cmd := w, done := false })) ∨
    (decodeCommand w = .error .reservedBits ∧
      startCommand w s = .done (raise .encoding { s with cmd := w, done := false })) := by
  unfold startCommand
  cases h : decodeCommand w with
  | ok i => exact .inl ⟨i, rfl, rfl⟩
  | error e => cases e with
    | badOpcode => exact .inr (.inl ⟨rfl, rfl⟩)
    | reservedBits => exact .inr (.inr ⟨rfl, rfl⟩)

/-- While a command runs and no reset input stands at the head of the queue, the fetch is the stage. -/
theorem fetch_busy {s : State} (hq : s.noResetNext) (hs : s.seq ≠ 0) :
    fetch s = .run (decodeStage s.seq) s := by
  unfold fetch
  cases h : s.hostQ with
  | nil => rfl
  | cons m q =>
    cases m with
    | reset n simd => exact absurd h (hq n simd q)
    | read a => exact if_pos hs
    | write a w => exact if_pos hs
    | busRead a n => exact if_pos hs
    | busWrite a bs => exact if_pos hs

/-- Between commands the host's next move is served. -/
theorem fetch_idle {s : State} {m : HostMove} {q : List HostMove} (hq : s.hostQ = m :: q)
    (hs : s.seq = 0) (hm : ∀ n simd, m ≠ .reset n simd) :
    fetch s = serve m { s with hostQ := q } := by
  unfold fetch
  rw [hq]
  cases m with
  | reset n simd => exact absurd rfl (hm n simd)
  | read a => simp [hs]
  | write a w => simp [hs]
  | busRead a n => simp [hs]
  | busWrite a bs => simp [hs]

end Machine

end Sys2Proof
end

