-- ==== Sys2Proof/Laws/PerInstr.lean ====
section
/-! SUPPORT. What holds of every operation as syntax, one lemma per constructor: its code lies in its row of
spec/opcode_table.json (the mask and match of the row). -/

namespace Sys2Proof.Laws

/-- Mask and match of an operation's row in spec/opcode_table.json. -/
def tableRow : Instr → Nat × Nat
  | .create => (0xFFFFFFFF, 0x01000000)
  | .init _ => (0xFF000000, 0x02000000)
  | .processFrame _ _ => (0xFF000000, 0x03000000)
  | .setMetrics _ => (0xFFFFFFFE, 0x04000000)
  | .getMetrics => (0xFFFFFFFF, 0x05000000)
  | .destroy => (0xFFFFFFFF, 0x06000000)
  | .fBufferFar => (0x1F, 0x01)
  | .fFetchFar => (0x1F, 0x02)
  | .fEnqueue => (0x1F, 0x03)
  | .fBlockTest => (0x1F, 0x04)
  | .bPop => (0x1F, 0x05)
  | .bLoad => (0x1F, 0x06)
  | .bXform => (0x1F, 0x07)
  | .bPow => (0x1F, 0x08)
  | .bNoise => (0x1F, 0x09)
  | .bFilter => (0x1F, 0x0A)
  | .bError => (0x1F, 0x0B)
  | .bErrXform => (0x1F, 0x0C)
  | .bScale => (0x1F, 0x0D)
  | .bAdapt => (0x1F, 0x0E)
  | .nDelayIdx => (0x1F, 0x0F)
  | .nWindow => (0x1F, 0x10)
  | .nPsd => (0x1F, 0x11)
  | .nDiverge => (0x1F, 0x12)
  | .nCoherence => (0x1F, 0x13)
  | .nClassify => (0x1F, 0x14)
  | .nGain => (0x1F, 0x15)
  | .nOverdrive => (0x1F, 0x16)
  | .nSuppress => (0x1F, 0x17)
  | .nComfort => (0x1F, 0x18)
  | .nSynth => (0x1F, 0x19)
  | .nHighband => (0x1F, 0x1A)
  | .nShift => (0x1F, 0x1B)
  | .mUpdate => (0x1F, 0x1C)
  | .bPush => (0x1F, 0x1D)
  | .fStuff => (0x1F, 0x1E)
  | .fPopOut => (0x1F, 0x1F)
  | .idle => (0x1F, 0x00)

/-- The bits of a code as a number. -/
def codeBits : Code → Nat
  | .command w => w.toNat
  | .stage n => n.toNat

/-- The code of an operation lies in its row of the opcode table. -/
def EncodesInRow.Statement (i : Instr) : Prop :=
  codeBits (encode i) &&& (tableRow i).1 = (tableRow i).2

theorem mask_command (op : BitVec 8) (imm : BitVec 24) :
    (commandWord op imm).toNat &&& 0xFF000000 = op.toNat <<< 24 := by
  have h : commandWord op imm &&& 0xFF000000#32 = (op.setWidth 32) <<< 24 := by
    apply BitVec.eq_of_getLsbD_eq
    intro j hj
    simp only [commandWord, BitVec.getLsbD_and, BitVec.getLsbD_append, BitVec.getLsbD_shiftLeft,
      BitVec.getLsbD_setWidth]
    have hm : (0xFF000000#32).getLsbD j = decide (24 ≤ j) := by
      interval_cases j <;> rfl
    rw [hm]
    by_cases h24 : j < 24
    · simp [h24, Nat.not_le.2 h24]
    · simp only [h24, if_false, Nat.le_of_not_lt h24, decide_true, Bool.and_true, decide_false,
        Bool.not_false, hj, Bool.true_and]
      have : j - 24 < 32 := by omega
      simp [this]
  have h2 := congrArg BitVec.toNat h
  have hlt : op.toNat * 2 ^ 24 < 4294967296 := by
    have := op.isLt
    omega
  simp only [BitVec.toNat_and, BitVec.toNat_shiftLeft, BitVec.toNat_setWidth, BitVec.toNat_ofNat] at h2
  rw [Nat.shiftLeft_eq] at h2 ⊢
  rw [Nat.mod_eq_of_lt (Nat.lt_of_lt_of_le op.isLt (by norm_num)), Nat.mod_eq_of_lt hlt] at h2
  exact h2

theorem EncodesInRow.create : EncodesInRow.Statement .create := rfl
theorem EncodesInRow.init (rate : Nat) : EncodesInRow.Statement (.init rate) :=
  mask_command 0x02 (BitVec.ofNat 24 rate)
theorem EncodesInRow.processFrame (hb : Bool) (delay : Int) :
    EncodesInRow.Statement (.processFrame hb delay) :=
  mask_command 0x03 (BitVec.ofBool hb ++ BitVec.ofInt 23 delay)
theorem EncodesInRow.setMetrics (enable : Bool) : EncodesInRow.Statement (.setMetrics enable) := by
  cases enable <;> rfl
theorem EncodesInRow.getMetrics : EncodesInRow.Statement .getMetrics := rfl
theorem EncodesInRow.destroy : EncodesInRow.Statement .destroy := rfl
theorem EncodesInRow.fBufferFar : EncodesInRow.Statement .fBufferFar := rfl
theorem EncodesInRow.fFetchFar : EncodesInRow.Statement .fFetchFar := rfl
theorem EncodesInRow.fEnqueue : EncodesInRow.Statement .fEnqueue := rfl
theorem EncodesInRow.fBlockTest : EncodesInRow.Statement .fBlockTest := rfl
theorem EncodesInRow.bPop : EncodesInRow.Statement .bPop := rfl
theorem EncodesInRow.bLoad : EncodesInRow.Statement .bLoad := rfl
theorem EncodesInRow.bXform : EncodesInRow.Statement .bXform := rfl
theorem EncodesInRow.bPow : EncodesInRow.Statement .bPow := rfl
theorem EncodesInRow.bNoise : EncodesInRow.Statement .bNoise := rfl
theorem EncodesInRow.bFilter : EncodesInRow.Statement .bFilter := rfl
theorem EncodesInRow.bError : EncodesInRow.Statement .bError := rfl
theorem EncodesInRow.bErrXform : EncodesInRow.Statement .bErrXform := rfl
theorem EncodesInRow.bScale : EncodesInRow.Statement .bScale := rfl
theorem EncodesInRow.bAdapt : EncodesInRow.Statement .bAdapt := rfl
theorem EncodesInRow.nDelayIdx : EncodesInRow.Statement .nDelayIdx := rfl
theorem EncodesInRow.nWindow : EncodesInRow.Statement .nWindow := rfl
theorem EncodesInRow.nPsd : EncodesInRow.Statement .nPsd := rfl
theorem EncodesInRow.nDiverge : EncodesInRow.Statement .nDiverge := rfl
theorem EncodesInRow.nCoherence : EncodesInRow.Statement .nCoherence := rfl
theorem EncodesInRow.nClassify : EncodesInRow.Statement .nClassify := rfl
theorem EncodesInRow.nGain : EncodesInRow.Statement .nGain := rfl
theorem EncodesInRow.nOverdrive : EncodesInRow.Statement .nOverdrive := rfl
theorem EncodesInRow.nSuppress : EncodesInRow.Statement .nSuppress := rfl
theorem EncodesInRow.nComfort : EncodesInRow.Statement .nComfort := rfl
theorem EncodesInRow.nSynth : EncodesInRow.Statement .nSynth := rfl
theorem EncodesInRow.nHighband : EncodesInRow.Statement .nHighband := rfl
theorem EncodesInRow.nShift : EncodesInRow.Statement .nShift := rfl
theorem EncodesInRow.mUpdate : EncodesInRow.Statement .mUpdate := rfl
theorem EncodesInRow.bPush : EncodesInRow.Statement .bPush := rfl
theorem EncodesInRow.fStuff : EncodesInRow.Statement .fStuff := rfl
theorem EncodesInRow.fPopOut : EncodesInRow.Statement .fPopOut := rfl
theorem EncodesInRow.idle : EncodesInRow.Statement .idle := rfl

end Sys2Proof.Laws
end

