-- ==== Sys2Proof/Tests/Slice0.lean ====
section
/-! SUPPORT. Tests: well-formedness, decoding of words written out from the encodings of the spec, one or two small
theorems per operation with values of spec/95_test_vectors.md (named V-…), and the witnesses of the obligations that
have hypotheses. -/

namespace Sys2Proof.Tests

/- One theorem after the other: elaborated side by side, this many evaluations in the kernel need more threads
than the check's memory limit leaves room for. -/
set_option Elab.async false

open Sys2Proof.Machine

/-! ### Well-formedness: each check refuses a term just outside its range -/

theorem test_wf_rejects_rate : (Instr.init (2 ^ 24)).wf = false := by decide
theorem test_wf_rejects_delay_above : (Instr.processFrame false (2 ^ 22)).wf = false := by decide
theorem test_wf_rejects_delay_below : (Instr.processFrame true (-2 ^ 22 - 1)).wf = false := by decide
theorem test_wf_accepts_bounds :
    (Instr.init (2 ^ 24 - 1)).wf = true ∧ (Instr.processFrame false (2 ^ 22 - 1)).wf = true ∧
      (Instr.processFrame true (-2 ^ 22)).wf = true := by decide

/-! ### Decoding -/

/-- V-DEC-1: opcode in bits 31:24, operands below. -/
theorem test_decode_commands :
    decodeCommand 0x01000000#32 = .ok .create ∧
    decodeCommand 0x02001F40#32 = .ok (.init 8000) ∧
    decodeCommand 0x02007D00#32 = .ok (.init 32000) ∧
    decodeCommand 0x02FFFFFF#32 = .ok (.init 16777215) ∧
    decodeCommand 0x03000064#32 = .ok (.processFrame false 100) ∧
    decodeCommand 0x03FFFFFD#32 = .ok (.processFrame true (-3)) ∧
    decodeCommand 0x037FFFFF#32 = .ok (.processFrame false (-1)) ∧
    decodeCommand 0x033FFFFF#32 = .ok (.processFrame false 4194303) ∧
    decodeCommand 0x03400000#32 = .ok (.processFrame false (-4194304)) ∧
    decodeCommand 0x04000000#32 = .ok (.setMetrics false) ∧
    decodeCommand 0x04000001#32 = .ok (.setMetrics true) ∧
    decodeCommand 0x05000000#32 = .ok .getMetrics ∧
    decodeCommand 0x06000000#32 = .ok .destroy := by decide

/-- V-DEC-2. -/
theorem test_decode_illegal :
    [0x00000000#32, 0x07000000#32, 0xFFFFFFFF#32, 0x00FFFFFF#32].map decodeCommand =
      List.replicate 4 (.error .badOpcode) ∧
    [0x01000001#32, 0x01800000#32, 0x05800000#32, 0x06000001#32, 0x04000002#32, 0x04000003#32, 0x04800000#32].map
      decodeCommand = List.replicate 7 (.error .reservedBits) := by decide

/-- R108: the value of SEQ and its stage. -/
theorem test_decode_stages_low :
    decodeStage 0b00000#5 = .idle ∧ decodeStage 0b00001#5 = .fBufferFar ∧
    decodeStage 0b00010#5 = .fFetchFar ∧ decodeStage 0b00011#5 = .fEnqueue ∧
    decodeStage 0b00100#5 = .fBlockTest ∧ decodeStage 0b00101#5 = .bPop ∧
    decodeStage 0b00110#5 = .bLoad ∧ decodeStage 0b00111#5 = .bXform ∧
    decodeStage 0b01000#5 = .bPow ∧ decodeStage 0b01001#5 = .bNoise ∧
    decodeStage 0b01010#5 = .bFilter ∧ decodeStage 0b01011#5 = .bError ∧
    decodeStage 0b01100#5 = .bErrXform ∧ decodeStage 0b01101#5 = .bScale ∧
    decodeStage 0b01110#5 = .bAdapt ∧ decodeStage 0b01111#5 = .nDelayIdx := by decide

/-- R108. -/
theorem test_decode_stages_high :
    decodeStage 0b10000#5 = .nWindow ∧ decodeStage 0b10001#5 = .nPsd ∧
    decodeStage 0b10010#5 = .nDiverge ∧ decodeStage 0b10011#5 = .nCoherence ∧
    decodeStage 0b10100#5 = .nClassify ∧ decodeStage 0b10101#5 = .nGain ∧
    decodeStage 0b10110#5 = .nOverdrive ∧ decodeStage 0b10111#5 = .nSuppress ∧
    decodeStage 0b11000#5 = .nComfort ∧ decodeStage 0b11001#5 = .nSynth ∧
    decodeStage 0b11010#5 = .nHighband ∧ decodeStage 0b11011#5 = .nShift ∧
    decodeStage 0b11100#5 = .mUpdate ∧ decodeStage 0b11101#5 = .bPush ∧
    decodeStage 0b11110#5 = .fStuff ∧ decodeStage 0b11111#5 = .fPopOut := by decide

theorem test_decode_table_word :
    decodeTableWord 32 0x03FFFFFD = some (.processFrame true (-3)) ∧ decodeTableWord 8 0x1C = some .mUpdate ∧
      decodeTableWord 8 0x20 = none ∧ decodeTableWord 32 0x07000000 = none := by decide

/-! ### A small block -/

/-- A binary32 value from its pattern. -/
def f (b : BitVec 32) : F32 := ⟨b⟩

/-- Small parameters: two partitions, a delay buffer of 100 samples, the thresholds of the spec's reference set
(spec/93_implementation_defined.md part 3), and the four flags left at their defaults (R9). -/
def prmDefault : Params where
  extraParts := 1
  extraFar := 20
  win := Vector.replicate 65 Lit.one
  weightCurve := Vector.replicate 65 Lit.c0_5
  overdriveCurve := Vector.replicate 65 Lit.one
  gCohOld := ⟨Lit.c0_9, f 0x3F6E147B⟩
  gCohNew := ⟨Lit.c0_1, f 0x3D8F5C29⟩
  prefMin := ⟨4, 2⟩
  prefSize := ⟨24, 12⟩
  thNearDeOn := f 0x3F7AE148
  thNearXdOn := Lit.c0_9
  thNearDeOff := f 0x3F733333
  thNearXdOff := f 0x3F4CCCCD
  thXdMin := f 0x3F400000
  riseXd := ⟨f 0x3A1D4952, f 0x399D4952⟩
  thFbMin := Lit.c0_6
  riseFb := ⟨f 0x3A51B717, f 0x39D1B717⟩
  targetSupp := f 0xC1380000
  odSlowOn := .decrease
  noiseStep := Lit.c0_1
  dMinPowInit := f 0x49742400
  sdInit := Lit.one
  sxInit := Lit.one
  sxFloor := f 0x41700000
  seed0 := 777
  hbCnEn := false
  cnScaleHband := f 0x3ECCCCCD
  hbAvgLo := 32
  hbAvgHi := 63
  actNoisy := f 0x41000000
  actClean := f 0x42200000
  noisyPower := f 0x48927C00
  safety := f 0x3F7FFCB9
  levelMinInit := f 0x5BB1A2BC
  statInit := f 0xC2C80000
  statMinInit := f 0x42C80000
  simd := false
  byteOrder := .little

/-- The unconstrained variant, a departure from the default build that keeps the transforms out of B_ADAPT. -/
def prm : Params := { prmDefault with unconstr := true }

/-- R9: a record that names none of the four flags is the default build; CONFIG bits 3:0 show it (R26). -/
theorem test_default_build :
    prmDefault.DefaultBuild ∧ configWord prmDefault = 0b001110#32 ∧ (default : Params).DefaultBuild := by decide

/-- The block with these parameters after a successful INIT at a rate. -/
def ready (rate : Nat) : State := { State.reset with cfg := prm, life := .ready, inst := Inst.init prm rate }

/-- The block OFF, with these parameters. -/
def off : State := { State.reset with cfg := prm, inst := Inst.zero prm }

/-- The state an outcome goes on with; where it stops, the given one. -/
def nextOr (s : State) : Host.Outcome State Fault Refusal → State
  | .next t => t
  | _ => s

/-- An outcome goes on. -/
def goesOn : Host.Outcome State Fault Refusal → Bool
  | .next _ => true
  | _ => false

/-- The state after one operation. -/
def after (i : Instr) (s : State) : State := nextOr s (exec i s)

/-- The state after one host move. -/
def move (m : HostMove) (s : State) : State := nextOr s (step { s with hostQ := [m] })

/-! ### Commands, faults and the host -/

/-- V-FLT-4, V-LIFE-1. -/
theorem test_create :
    (createWith true off).statusWord = 0x41 ∧ (createWith false { off with cmd := 0x01000000 }).statusWord = 0x0B ∧
      (createWith false { off with cmd := 0x01000000 }).err = 0x01000006 := by decide

/-- V-FLT-2: the first fault stays in ERR. -/
theorem test_first_fault_stays :
    (raise .state { off with cmd := 0x03FFFFFD }).err = 0x03FFFF03 ∧
      (raise .opcode (raise .state { off with cmd := 0x03000000 })).err = 0x03000003 := by decide

/-- R252: INIT at 16000 Hz, and with an invalid rate. -/
theorem test_init :
    (initWith true 16000 off).life = .ready ∧ (initWith true 16000 off).inst.mu = Lit.c0_5 ∧
      (initWith true 16000 off).inst.mult = 2 ∧
      (initWith true 44100 { off with cmd := 0x0200AC44 }).life = .failed ∧
      (initWith true 44100 { off with cmd := 0x0200AC44 }).err = 0x0200AC04 := by decide

/-- V-FLT-1: in OFF, ERR_STATE comes before ERR_BAD_RATE. -/
theorem test_init_in_off : (move (.write 0 0x0200AC44) off).err = 0x0200AC03 := by decide

theorem test_destroy :
    (after .destroy (ready 8000)).statusWord = 0x40 ∧ (after .destroy off).fault = true := by decide

/-- V-FLT-1: at 32000 Hz a frame without the high band is refused with its fault. -/
theorem test_process_frame :
    (move (.write 0 0x03000000) (ready 32000)).err = 0x03000007 ∧
      (move (.write 0 0x03800005) (ready 32000)).seq = 1 ∧
      (move (.write 0 0x03800005) (ready 32000)).blk.d = 5 := by decide

/-- V-FLT-4. -/
theorem test_set_metrics :
    (after (.setMetrics true) (ready 8000)).statusWord = 0x52 ∧
      (after (.setMetrics true) (ready 8000)).inst.erl.instant = f 0xC2C80000 := by decide

/-- V-GET-1, V-WIN-3. -/
theorem test_get_metrics :
    (after .getMetrics (ready 8000)).hostWord 0x600 = 0xC2C80000 ∧
      (after .getMetrics (ready 8000)).hostWord 0x60C = 0x42C80000 ∧
      (after .getMetrics (ready 8000)).hostWord 0x613 = 0xC2C80000 := by decide

/-- V-WIN-1. -/
theorem test_window_write :
    (move (.write 0x100 0x0001FFFF) off).hostWord 0x100 = 0xFFFFFFFF ∧
      (move (.write 0x24F 0x00008000) off).hostWord 0x24F = 0xFFFF8000 := by decide

/-- V-WIN-2. -/
theorem test_read_only :
    (move (.write 0x400 5) off).mem = [] ∧ off.hostWord 0x150 = 0 ∧ off.hostWord 0x005 = 2 ∧
      off.hostWord 0x006 = 100 ∧ (ready 16000).hostWord 0x004 = 0x3E80 := by decide

/-- R77, R79: bytes lowest address first; an unaligned access is refused. -/
theorem test_byte_mapping :
    (move (.busWrite 0x400 [0x34, 0x12, 0, 0]) off).hostWord 0x100 = 0x1234 ∧
      goesOn (step { off with hostQ := [.busRead 0x402 4] }) = false := by decide

/-- R340: the reset input inside a command. -/
theorem test_reset_input :
    (move (.reset 0 true) { ready 8000 with seq := 9 }).life = .off ∧
      (move (.reset 0 true) { ready 8000 with seq := 9 }).hostWord 3 = 0x2F := by decide

/-! ### The delay buffer and the queues -/

/-- R130 across the wrap: 80 samples 1 to 80 from position 90 of 100. -/
theorem test_buffer_far :
    circWrite 100 (List.replicate 100 0) 90 ((List.range 80).map fun t => BitVec.ofNat 16 (t + 1)) =
      (((List.range 80).map fun t => BitVec.ofNat 16 (t + 1)).drop 10 ++ List.replicate 20 0
        ++ ((List.range 80).map fun t => BitVec.ofNat 16 (t + 1)).take 10) ∧
      (after .fBufferFar { ready 8000 with inst := { Inst.init prm 8000 with farBufWritePos := 90 } }).inst.farBufWritePos
        = 70 := by decide +kernel

/-- V-DLY-2. -/
theorem test_fetch_far_cursor :
    shiftCursor 3072 0 100 = 2972 ∧ shiftCursor 3072 0 (-1) = 1 ∧ shiftCursor 3072 0 5000 = 1144 ∧
      shiftCursor 3072 0 (-4194304) = 1024 ∧
      (after .fFetchFar (ready 8000)).inst.farBufReadPos = 80 := by decide

/-- V-RB-0. -/
theorem test_ring_buffers :
    rbWrite [5, 6] [7, 8] = some [5, 6, 7, 8] ∧ rbStuff [5, 6, 7, 8] 2 = some [0, 0, 5, 6, 7, 8] ∧
      rbRead [0, 0, 5, 6, 7, 8] 3 = some ([0, 0, 5], [6, 7, 8]) ∧ rbRead [5] 2 = none := by decide

/-- V-RB-1: fills of the first frame. -/
theorem test_enqueue_and_test :
    rbFill (after .fEnqueue { off with blk := { Blk.zero with farFr80 := Vector.replicate 80 7 } }).inst.farFr = 80 ∧
      (after .fBlockTest { ready 8000 with inst := { Inst.init prm 8000 with farFr := List.replicate 64 1 } }).seq = 5 ∧
      (after .fBlockTest { ready 8000 with inst := { Inst.init prm 8000 with farFr := List.replicate 63 1 } }).seq = 30 := by
  decide

/-- R262: oldest first. -/
theorem test_pop :
    let s := { ready 8000 with
      inst := { Inst.init prm 8000 with farFr := 3 :: List.replicate 64 9, nearFr := List.replicate 64 2 } }
    (after .bPop s).blk.farBl[0] = 3 ∧ (after .bPop s).inst.farFr = [9] ∧ (after .bPop s).inst.nearFr = [] ∧
      goesOn (exec .bPop (ready 8000)) = false := by decide

/-- R264, R266: 64 samples pushed, then 16 zeros before them. -/
theorem test_push_and_stuff :
    let s := after .bPush { ready 8000 with blk := { Blk.zero with outBl := Vector.replicate 64 4 } }
    s.inst.outFr = List.replicate 64 4 ∧
      (after .fStuff s).inst.outFr = List.replicate 16 0 ++ List.replicate 64 4 := by decide

/-- R267: OUT holds the frame, the rest stays queued, the command is done. -/
theorem test_pop_out :
    let s := after .fPopOut { ready 8000 with
      inst := { Inst.init prm 8000 with outFr := List.replicate 79 1 ++ [0xFFFE, 7] } }
    s.hostWord 0x44F = 0xFFFFFFFE ∧ s.hostWord 0x400 = 1 ∧ s.inst.outFr = [7] ∧ s.done = true := by
  decide +kernel

theorem test_idle : after .idle (ready 8000) = ready 8000 := rfl

/-! ### The adaptive filter -/

/-- V-LOAD-1. -/
theorem test_load :
    let s := after .bLoad { ready 8000 with
      blk := { Blk.zero with farBl := Vector.replicate 64 0xFFFB, nearBl := Vector.replicate 64 0x7FFF } }
    s.inst.xBuf[64] = f 0xC0A00000 ∧ s.inst.xBuf[0] = F32.zero ∧ s.inst.dBuf[127] = f 0x46FFFE00 := by
  decide +kernel

/-- R152, R162: SEQ goes on; R15, N2: bin 0 is real. -/
theorem test_transforms :
    (after .bXform (ready 8000)).seq = 8 ∧ (after .bErrXform (ready 8000)).seq = 13 ∧
      (after .bXform (ready 8000)).blk.xf[0].im = F32.zero := by decide +kernel

/-- V-POW-1, with 0.1 * float(12) as the far scale. -/
theorem test_pow :
    Lit.c0_1.mul (F32.ofInt 12) = f 0x3F99999A ∧
      smoothPow F32.zero (f 0x3F99999A) ⟨f 0x40400000, f 0x40800000⟩ = f 0x41F00001 ∧
      smoothPow (f 0x41F00001) (f 0x3F99999A) ⟨f 0x40400000, f 0x40800000⟩ = f 0x42640001 ∧
      (after .bPow (ready 8000)).inst.dPow[3] = F32.zero := by decide +kernel

/-- V-NOISE-1. -/
theorem test_noise_minimum :
    trackMin Lit.c0_1 (f 0x42C80000) (f 0x447A0000) = f 0x433E09BB ∧
      trackMin Lit.c0_1 (f 0x447A0000) (f 0x447A0000) = f 0x447A0CCD ∧
      trackMin Lit.c0_1 F32.zero (f 0x49742400) = f 0x47C35A00 := by decide +kernel

/-- V-NOISE-2: the first block after INIT, and the end of the start-up. -/
theorem test_noise_start :
    blendInit (f 0x49742400) F32.zero = f 0x447A0001 ∧ blendInit (f 0x49742400) (f 0x447A0001) = f 0x44F9E001 ∧
      (after .bNoise (ready 8000)).inst.noiseEstCtr = 1 ∧
      (after .bNoise { ready 8000 with inst := { Inst.init prm 8000 with noiseEstCtr := 500 } }).inst.noiseSel
        = true := by decide +kernel

/-- V-ROT-1, V-FILT-1: position 1 of two, partition 0 with slot 1. -/
theorem test_filter :
    let sp := fun (a b : BitVec 32) => (Vector.replicate 65 ⟨f a, f b⟩ : Spectrum)
    let s := { ready 8000 with
      inst := { Inst.init prm 8000 with
        xfBuf := [sp 0 0x3F800000, sp 0 0], wfBuf := [sp 0x40400000 0, sp 0 0x3F800000] }
      blk := { Blk.zero with xf := sp 0x3F800000 0x40000000 } }
    rotateBack 12 0 = 11 ∧ (after .bFilter s).inst.xfBufBlockPos = 1 ∧
      (after .bFilter s).blk.yf[5] = ⟨f 0x40000000, f 0x40C00000⟩ := by decide +kernel

/-- V-ERR-1 (its arithmetic) and SEQ. -/
theorem test_error :
    (f 0x41200000).sub ((f 0x43000000).mul Lit.ifftScale) = f 0x41000000 ∧
      errorSample 0 0 (f 0x471C4080) = 0x7FFF ∧ (after .bError (ready 8000)).seq = 12 := by decide +kernel

/-- V-SCALE-1, V-SCALE-2. -/
theorem test_scale :
    scaleBin Lit.c0_6 Lit.c2e_6 (f 0x49742400) ⟨f 0x40400000, f 0x40800000⟩ = ⟨f 0x35414607, f 0x3580D95A⟩ ∧
      (scaleBin Lit.c0_6 Lit.c2e_6 F32.zero ⟨Lit.c0_001, F32.zero⟩).re = f 0x35A10FB0 ∧
      (after .bScale (ready 8000)).seq = 14 := by decide +kernel

/-- V-ADAPT-1. -/
theorem test_adapt :
    let sp := fun (a b : BitVec 32) => (Vector.replicate 65 ⟨f a, f b⟩ : Spectrum)
    let s := { ready 8000 with
      inst := { Inst.init prm 8000 with
        xfBuf := [sp 0x3F800000 0x40000000, sp 0 0], wfBuf := [sp 0x3F000000 0x3F000000, sp 0 0] }
      blk := { Blk.zero with ef := sp 0x40400000 0xBF800000 } }
    (bankAt (after .bAdapt s).inst.wfBuf 0)[7] = ⟨f 0x3FC00000, f 0xC0D00000⟩ := by decide +kernel

/-- V-DIV-1, V-DIV-2. -/
theorem test_diverge_flag :
    divergeFlag false (f 0x40A00000) (f 0x40A00000) = false ∧ divergeFlag false (f 0x40A00000) (f 0x40A00001) = true ∧
      divergeFlag true (f 0x42D00000) (f 0x42C80000) = true ∧
      divergeFlag true (f 0x42D20000) (f 0x42C80000) = false := by decide +kernel

/-- V-DIV-4, V-DIV-5. -/
theorem test_diverge_reset :
    hardResetDue (f 0x41200000) (f 0x43478000) = false ∧ hardResetDue (f 0x41200000) (f 0x4347999A) = true ∧
      (after .nDiverge { ready 8000 with
        blk := { Blk.zero with seSum := Lit.one, dfw := Vector.replicate 65 ⟨Lit.one, Lit.one⟩ } }).blk.efw[3]
        = ⟨Lit.one, Lit.one⟩ := by decide +kernel

/-! ### The suppressor -/

/-- V-DIDX-1: partitions of energies 0.5 times 65, 2 times 65, 2 times 65. -/
theorem test_delay_index :
    let sp := fun (a : BitVec 32) => (Vector.replicate 65 ⟨f a, F32.zero⟩ : Spectrum)
    bestPartition 3 [sp 0x3F000000, sp 0x40000000, sp 0x40000000] = 1 ∧
      bestPartition 3 [sp 0, sp 0x7FC00000, sp 0x3F800000] = 2 ∧
      (after .nDelayIdx (ready 8000)).inst.delayEstCtr = 1 := by decide +kernel

/-- V-WND-1: sample 64 under WIN[64], sample 127 under WIN[1]. -/
theorem test_window :
    let win : Bins := Vector.ofFn fun k : Fin 65 => if k = 64 then Lit.one else if k = 1 then f 0x3CC90AB0 else F32.zero
    let x := windowed win (Vector.replicate 128 (f 0x40E00000))
    x[64] = f 0x40E00000 ∧ x[0] = F32.zero ∧ x[127] = (f 0x40E00000).mul (f 0x3CC90AB0) ∧
      (after .nWindow (ready 8000)).seq = 17 := by decide +kernel

/-- V-PSD-1. -/
theorem test_psd :
    let s := after .nPsd { ready 16000 with
      blk := { Blk.zero with
        dfw := Vector.replicate 65 ⟨f 0x40400000, f 0x40800000⟩ } }
    s.inst.sd[9] = f 0x402B851F ∧
      smooth Lit.c0_9 Lit.c0_1 Lit.one ((F32.zero).max (f 0x41700000)) = f 0x4019999A ∧
      smoothCross Lit.c0_9 Lit.c0_1 C32.zero ⟨f 0x3F800000, f 0x40000000⟩ ⟨f 0x40400000, f 0x40800000⟩ =
        ⟨f 0x3F8CCCCD, f 0xBE4CCCCD⟩ := by decide +kernel

/-- V-COH-1. -/
theorem test_coherence :
    coherence ⟨f 0x40400000, f 0x40800000⟩ (f 0x41200000) (f 0x40A00000) = Lit.c0_5 ∧
      (after .nCoherence (ready 8000)).blk.cohde[0] = F32.zero := by decide +kernel

/-- V-CLS-1 (silence), V-CLS-3. -/
theorem test_classify :
    (after .nClassify (ready 8000)).blk.hNlXdAvg = Lit.one ∧
      nearFlag prm false (f 0x3F7D70A4) (f 0x3F733333) = true ∧
      nearFlag prm true (f 0x3F7AE148) (f 0x3F733333) = true ∧
      nearFlag prm true (f 0x3F7D70A4) (f 0x3F4A3D71) = false ∧
      lowerXdMin prm.thXdMin (f 0x3F333333) Lit.one = f 0x3F333333 := by decide +kernel

/-- V-GAIN-2: the order statistics of twelve gains are the 9th and the 6th. -/
theorem test_gain_order :
    let l := [9, 1, 5, 3, 7, 2, 8, 4, 6, 10, 0, 11].map fun n : Int => F32.ofInt n
    (sortBins l)[quantHi 12]? = some (F32.ofInt 8) ∧ (sortBins l)[quantLo 12]? = some (F32.ofInt 5) ∧
      quantHi 24 = 17 ∧ quantLo 24 = 11 := by decide +kernel

/-- V-GAIN-1, V-GAIN-3. -/
theorem test_gain_modes :
    gainMode true false = .xd ∧ gainMode true true = .de ∧ gainMode false true = .de ∧
      gainMode false false = .min ∧ gainBin .de (f 0x3F800001) F32.zero = Lit.one ∧
      gainBin .xd F32.zero (f 0x3F800001) = F32.zero ∧ gainBin .de F32.nan F32.zero = F32.zero ∧
      (after .nGain (ready 8000)).blk.hNl[0] = Lit.one := by decide +kernel

/-- V-OD-1 block A, V-OD-3. -/
theorem test_overdrive :
    let s := after .nOverdrive { ready 8000 with blk := { Blk.zero with hNlFbLow := Lit.c0_1 } }
    s.inst.hNlFbLocalMin = f 0x3DCE703B ∧ s.inst.hNlFbMin = Lit.c0_1 ∧ s.inst.hNlNewMin = true ∧
      s.inst.hNlMinCtr = 1 ∧ s.inst.overDriveSm = f 0x40000000 ∧
      riseMin (f 0x3F7FF972) (f 0x399D4952) = Lit.one := by decide +kernel

/-- V-OD-4. -/
theorem test_overdrive_blend :
    smoothOverDrive .decrease (f 0x40A00000) (f 0x40000000) = f 0x40133333 ∧
      smoothOverDrive .increase (f 0x40A00000) (f 0x40000000) = f 0x4001EB85 := by decide +kernel

/-- V-SUP-1: the blend; a gain of 1 stays 1 (N3). -/
theorem test_suppress :
    blendGain (f 0x3E800000) (f 0x3ECCCCCD) (f 0x3F4CCCCD) = f 0x3F333334 ∧
      finalGain F32.zero Lit.one Lit.one (f 0x40000000) Lit.one = Lit.one ∧
      (after .nSuppress (ready 8000)).seq = 24 := by decide +kernel

/-! ### Comfort noise and output -/

/-- V-CN-1: the weight of a gain of 0.6; no noise in bin 0. -/
theorem test_comfort :
    noiseWeight Lit.c0_6 = f 0x3F4CCCCD ∧ noiseWeight Lit.one = F32.zero ∧
      noiseBin 777 0 (fun v => v) Lit.one = C32.zero ∧
      (after .nComfort (ready 8000)).blk.cnH = Spectrum.zero := by decide +kernel

/-- V-SAT-1. -/
theorem test_saturation :
    sat16 (f 0x3F666666) = some 0 ∧ sat16 (f 0xBFC00000) = some 0xFFFF ∧ sat16 (f 0x46FFFDCD) = some 32766 ∧
      sat16 (f 0x47000000) = some 0x7FFF ∧ sat16 (f 0x7F800000) = some 0x7FFF ∧
      sat16 (f 0xC6FFFF00) = some 0x8001 ∧ sat16 (f 0xFF800000) = some 0x8000 ∧ sat16 F32.nan = none := by
  decide +kernel

/-- V-SYN-1: an output block of 12.7 saturates to 12; the first NaN of a block. -/
theorem test_synth :
    (saturated (Vector.replicate 64 (f 0x414B3333)))[0] = 12 ∧
      firstNaN (Vector.ofFn fun n : Fin 64 => if n = 5 then F32.nan else F32.zero) = 5 ∧
      firstNaN Half.zero = 64 := by decide +kernel

/-- V-HB-1: a gain of 0.25 without noise; nothing below 32000 Hz. -/
theorem test_high_band :
    let s := fun r => { ready r with
      inst := { Inst.init prm r with dBufH := Vector.replicate 128 (f 0x447A0000) }
      blk := { Blk.zero with hNl := Vector.replicate 65 (f 0x3E800000) } }
    (after .nHighband (s 32000)).blk.outBlH[5] = 250 ∧ (after .nHighband (s 16000)).blk.outBlH[5] = 0 ∧
      (after .nHighband (s 16000)).seq = 27 := by decide +kernel

/-- V-SHIFT-1. -/
theorem test_shift :
    let sp := fun (a : BitVec 32) => (Vector.replicate 65 ⟨f a, F32.zero⟩ : Spectrum)
    ageBank [sp 1, sp 2, sp 3] = [sp 1, sp 1, sp 2] ∧
      (shiftHalves (joinHalves (fun _ => F32.zero) fun _ => Lit.one))[0] = Lit.one ∧
      (after .nShift (ready 8000)).seq = 28 := by decide +kernel

/-! ### The metrics -/

/-- V-LVL-1: the fourth block of constant 100. -/
theorem test_level :
    let l := { Level.init prm with sfrsum := f 0x49EA6000, sfrcounter := 3 }
    let b : Block16 := Vector.replicate 64 100
    (Level.update l b).1.framelevel = f 0x461C4000 ∧ (Level.update l b).1.minlevel = f 0x461C4000 ∧
      (Level.update l b).1.frcounter = 1 ∧ (Level.update l b).2 = false ∧
      nextMinLevel (f 0x461C4000) (f 0x461C4000) = f 0x461C6800 := by decide +kernel

/-- V-REC-1; M_UPDATE with metrics disabled changes nothing. -/
theorem test_statistics :
    let r := ((Stat.init prm).update Lit.ten).update (f 0x41A00000)
    r.fields = [f 0x41A00000, f 0x41700000, f 0x41200000, f 0x41A00000, f 0x41A00000] ∧ r.hicounter = 1 ∧
      (after .mUpdate (ready 8000)).inst = (ready 8000).inst := by decide +kernel

/-! ### Witnesses: for each obligation with hypotheses, a state and operands that meet them, clause by clause -/

/-- The block between commands with one host move in flight. -/
def withMove (m : HostMove) : State := { off with hostQ := [m] }

theorem witness_DecodeEncodeInverse :
    (Instr.init 0).WellFormed ∧ (Instr.init (2 ^ 24 - 1)).WellFormed ∧
      (Instr.processFrame true (-2 ^ 22)).WellFormed ∧ (Instr.processFrame false (2 ^ 22 - 1)).WellFormed ∧
      Instr.idle.WellFormed ∧ decodeCode (.command 0x03400000#32) = .ok (.processFrame false (-2 ^ 22)) ∧
      decodeCode (.stage 31#5) = .ok .fPopOut := by decide

theorem witness_StepRunsCommandWord :
    (withMove (.write 0 0x02001F40)).seq = 0 ∧
      (withMove (.write 0 0x02001F40)).hostQ = .write 0 0x02001F40 :: [] ∧
      decodeCommand 0x02001F40#32 = .ok (.init 8000) := by decide

theorem witness_StepRunsStage :
    ({ withMove (.read 1) with seq := 31 } : State).noResetNext ∧
      ({ withMove (.read 1) with seq := 31 } : State).seq ≠ 0 ∧ off.noResetNext ∧ off.hostQ = [] :=
  ⟨fun _ _ _ h => by simp [withMove] at h, by decide, fun _ _ _ h => by simp [off, State.reset] at h, rfl⟩

/-- Words at the ends of every range of opcodes and reserved bits. -/
theorem witness_IllegalWordsFault :
    (∀ w, (withMove (.write 0 w)).seq = 0 ∧ (withMove (.write 0 w)).hostQ = .write 0 w :: []) ∧
    ([0x00000000#32, 0x00FFFFFF#32, 0x07000000#32, 0xFFFFFFFF#32].all fun w : Word =>
      w.toNat / 2 ^ 24 = 0 ∨ 7 ≤ w.toNat / 2 ^ 24) = true ∧
    ([0x01000001#32, 0x05FFFFFF#32, 0x06000001#32].all fun w : Word =>
      w.toNat / 2 ^ 24 ∈ [1, 5, 6] ∧ w.toNat % 2 ^ 24 ≠ 0) = true ∧
    ([0x04000002#32, 0x04FFFFFF#32].all fun w : Word =>
      w.toNat / 2 ^ 24 = 4 ∧ 2 ≤ w.toNat % 2 ^ 24) = true ∧
    ([0x01000000#32, 0x02FFFFFF#32, 0x03000000#32, 0x04000001#32, 0x05000000#32, 0x06000000#32].all fun w : Word =>
      (decodeCommand w).toOption.isSome) = true :=
  ⟨fun _ => ⟨rfl, rfl⟩, by decide +kernel, by decide +kernel, by decide +kernel, by decide +kernel⟩

theorem witness_ResetInput :
    (withMove (.reset 1 true)).hostQ = .reset (0 + 1) true :: [] ∧
      (withMove (.reset 0 true)).hostQ = .reset 0 true :: [] := by decide

theorem witness_InputWindowReadsBack :
    ∀ a ∈ [0x100, 0x14F, 0x200, 0x24F, 0x300, 0x34F],
      off.seq = 0 ∧ ((0x100 ≤ a ∧ a < 0x150) ∨ (0x200 ≤ a ∧ a < 0x250) ∨ (0x300 ≤ a ∧ a < 0x350)) ∧
        ({ off with hostQ := [.write a 5, .read a] } : State).hostQ = .write a 5 :: .read a :: [] := by decide

theorem witness_OtherHostWritesIgnored :
    (∀ a ∈ [1, 6, 7, 0xFF, 0x150, 0x1FF, 0x250, 0x2FF, 0x350, 0x400, 0x613, 0x7FF], a ≠ 0 ∧ a < 0x800 ∧
      ¬((0x100 ≤ a ∧ a < 0x150) ∨ (0x200 ≤ a ∧ a < 0x250) ∨ (0x300 ≤ a ∧ a < 0x350))) ∧
    (withMove (.write 0x800 5)).hostQ = .write 0x800 5 :: [] ∧ (withMove (.write 0x800 5)).seq = 0 := by decide

theorem witness_HostReads :
    (∀ a ∈ [0, 1, 2, 3, 4, 5, 6, 7, 0xFF, 0x100, 0x14F, 0x150, 0x1FF, 0x200, 0x24F, 0x250, 0x2FF],
      (withMove (.read a)).seq = 0 ∧ a < 0x800 ∧ goesOn (step (withMove (.read a))) = true) ∧
    (∀ a ∈ [0x300, 0x34F, 0x350, 0x3FF, 0x400, 0x44F, 0x450, 0x4FF, 0x500, 0x54F, 0x550, 0x5FF, 0x600, 0x613,
        0x614, 0x7FF],
      (withMove (.read a)).seq = 0 ∧ a < 0x800 ∧ goesOn (step (withMove (.read a))) = true) ∧
    ∀ a, (withMove (.read a)).hostQ = .read a :: [] :=
  ⟨by decide +kernel, by decide +kernel, fun _ => rfl⟩

theorem witness_ByteMapping :
    off.seq = 0 ∧ (withMove (.busRead 1 4)).hostQ = .busRead 1 4 :: [] ∧ ¬(4 = 4 ∧ 1 % 4 = 0) ∧
      (withMove (.busWrite 4 [0, 0])).hostQ = .busWrite 4 [0, 0] :: [] ∧
      (withMove (.busRead (4 * 0x7FF) 4)).hostQ = .busRead (4 * 0x7FF) 4 :: [] ∧ off.cfg.byteOrder = .little ∧
      (withMove (.busWrite (4 * 0) [1, 2, 3, 4])).hostQ = .busWrite (4 * 0) [1, 2, 3, 4] :: [] ∧
      ({ off with cfg := { prm with byteOrder := .big } } : State).cfg.byteOrder = .big := by decide

theorem witness_FaultMechanism :
    off.fault = false ∧ ({ off with fault := true } : State).fault = true := by decide

theorem witness_LifecycleTable :
    off.life = .off ∧ ({ off with life := .created } : State).life = .created ∧ (ready 8000).life = .ready ∧
      ({ off with life := .failed } : State).life = .failed ∧
      ((ready 32000).inst.wide ∧ ¬(ready 16000).inst.wide) := by decide

theorem witness_FaultIsSticky :
    (∀ k simd, HostMove.reset k simd ∉ (withMove (.write 0 0)).hostQ) ∧
      goesOn (runSteps 3 { withMove (.write 0 0) with fault := true, err := 0x03000003 }) = true :=
  ⟨fun _ _ h => by simp [withMove] at h, by decide +kernel⟩

theorem witness_CreateAndDestroyResults : off.life = .off ∧ (ready 8000).life ≠ .off := by decide

theorem witness_InitResult :
    ({ off with life := .created } : State).life = .created ∧ (ready 8000).life = .ready ∧
      (∀ rate ∈ [0, 7999, 8001, 2 ^ 24 - 1], ¬(rate = 8000 ∨ rate = 16000 ∨ rate = 32000)) ∧
      (ready 8000).cfg.nlpEn = true ∧
      ({ ready 8000 with cfg := { prm with nlpEn := false } } : State).cfg.nlpEn = false := by decide

theorem witness_ProcessFrameStarts :
    (ready 8000).life = .ready ∧ ¬(ready 8000).inst.wide ∧ (ready 32000).life = .ready ∧
      (ready 32000).inst.wide := by decide

theorem witness_SetMetricsResult : (ready 8000).life = .ready := by decide

/-- The second state's record holds a NaN. -/
theorem witness_GetMetricsResult :
    (ready 8000).life = .ready ∧ (ready 8000).inst.erl.instant.isNaN = false ∧
      ({ Stat.zero with instant := F32.nan } : Stat).instant.isNaN = true := by decide

theorem witness_FBufferFarResult : (ready 8000).inst.farBuf.length = (ready 8000).cfg.farBufLen := by decide

/-- The block at a rate with every queue holding `n` samples. -/
def filled (rate n : Nat) : State :=
  { ready rate with
    inst := { Inst.init prm rate with
      farFr := List.replicate n 1, nearFr := List.replicate n 2, nearFrH := List.replicate n 3
      outFr := List.replicate n 4, outFrH := List.replicate n 5 } }

theorem witness_FEnqueueResult :
    (filled 32000 64).inst.wide ∧ (filled 32000 64).inst.farFr.length + 80 ≤ 144 ∧
      (filled 32000 64).inst.nearFr.length + 80 ≤ 144 ∧ (filled 32000 64).inst.nearFrH.length + 80 ≤ 144 ∧
      ¬(filled 32000 65).inst.farFr.length + 80 ≤ 144 := by decide

theorem witness_BPopResult :
    (filled 32000 64).inst.wide ∧ 64 ≤ (filled 32000 64).inst.farFr.length ∧
      64 ≤ (filled 32000 64).inst.nearFr.length ∧ 64 ≤ (filled 32000 64).inst.nearFrH.length ∧
      ¬64 ≤ (filled 32000 63).inst.farFr.length := by decide

theorem witness_BPushResult :
    (filled 32000 80).inst.wide ∧ (filled 32000 80).inst.outFr.length + 64 ≤ 144 ∧
      (filled 32000 80).inst.outFrH.length + 64 ≤ 144 ∧ ¬(filled 32000 81).inst.outFr.length + 64 ≤ 144 := by
  decide

/-- The second state's high-band queue is longer than the low band's, which no run reaches. -/
theorem witness_FStuffResult :
    (filled 32000 64).inst.wide ∧ (filled 32000 64).inst.outFr.length < 80 ∧
      (filled 32000 64).inst.outFrH.length + (80 - (filled 32000 64).inst.outFr.length) ≤ 144 ∧
      ¬(filled 32000 140).inst.outFrH.length + (80 - ([] : List Sample).length) ≤ 144 := by decide

theorem witness_FPopOutResult :
    (filled 32000 80).inst.wide ∧ 80 ≤ (filled 32000 80).inst.outFr.length ∧
      80 ≤ (filled 32000 80).inst.outFrH.length ∧ ¬80 ≤ (filled 32000 79).inst.outFr.length ∧
      goesOn (exec .fPopOut (filled 32000 80)) = true := by decide

theorem witness_FrameFillCycle :
    let s : State := { ready 32000 with hostQ := [.write 0 0x03800000] }
    s.life = .ready ∧ s.seq = 0 ∧ s.hostQ = .write 0 0x03800000 :: [] ∧
      decodeCommand 0x03800000#32 = .ok (.processFrame true 0) ∧ s.inst.wide ∧ (0, 0) ∈ fillTable ∧
      s.inst.Fills 0 0 :=
  ⟨rfl, rfl, rfl, by decide, by decide, by decide, rfl, rfl, rfl, fun _ => ⟨rfl, rfl⟩⟩

theorem witness_TransformResults :
    (∀ n : Fin 128, (ready 8000).inst.xBuf[n].isZero = true) ∧
      ∀ n : Fin 64, Time.zero[n.val] = F32.zero ∧ Time.zero[64 + n.val] = (ready 8000).blk.e[n] := by
  decide +kernel

theorem witness_BFilterResult : (ready 8000).inst.xfBuf.length = (ready 8000).cfg.nrPart := by decide

/-- With the near end a NaN the error is one. -/
theorem witness_BErrorResult :
    (F32.nan.sub ((Num.invReal Spectrum.zero)[64].mul Lit.ifftScale)).isNaN = true := by
  have h : F32.nan.isNaN = true := by decide
  simp only [F32.sub, F32.add, h, Bool.true_or, if_true]

/-- The cross term of an error of zeros, and the constrained buffer of a cross term. -/
theorem witness_BAdaptResult :
    (ready 8000).cfg.adaptEn = true ∧ (ready 8000).cfg.unconstr = true ∧
      ({ prm with unconstr := false } : Params).unconstr = false ∧
      ({ prm with adaptEn := false } : Params).adaptEn = false ∧ 1 < (ready 8000).inst.wfBuf.length ∧
      (∀ g : Spectrum, ∃ v : Time, ∀ n : Fin 64,
        v[n.val] = (Num.invReal g)[n.val].mul Lit.ifftScale ∧ v[64 + n.val] = F32.zero) ∧
      ∃ g : Spectrum, ∀ k : Fin 65,
        g[k] = C32.mul ⟨(bankAt (ready 8000).inst.xfBuf 1)[k].re, (bankAt (ready 8000).inst.xfBuf 1)[k].im.neg⟩
          (ready 8000).blk.ef[k] :=
  ⟨rfl, rfl, rfl, rfl, by decide,
    fun g => ⟨joinHalves (fun n => (Num.invReal g)[n.val].mul Lit.ifftScale) fun _ => F32.zero,
      fun n => by simp [joinHalves]⟩,
    ⟨Vector.ofFn fun k : Fin 65 => C32.mul
      ⟨(bankAt (ready 8000).inst.xfBuf 1)[k].re, (bankAt (ready 8000).inst.xfBuf 1)[k].im.neg⟩
        (ready 8000).blk.ef[k], fun k => by simp⟩⟩

theorem witness_NDivergeResult :
    Lit.one.gt (Lit.divReset.mul F32.zero) = true ∧ F32.zero.gt (Lit.divReset.mul F32.zero) = false := by
  decide +kernel

theorem witness_ZeroErrorKeepsZeroWeights :
    (∀ k : Fin 65, (ready 8000).blk.ef[k].re.isZero = true ∧ (ready 8000).blk.ef[k].im.isZero = true) ∧
    (∀ p (k : Fin 65), (bankAt (ready 8000).inst.xfBuf p)[k].re.isFinite = true ∧
      (bankAt (ready 8000).inst.xfBuf p)[k].im.isFinite = true) ∧
    (∀ p (k : Fin 65), (bankAt (ready 8000).inst.wfBuf p)[k].re.isZero = true ∧
      (bankAt (ready 8000).inst.wfBuf p)[k].im.isZero = true) := by
  have hz : ∀ k : Fin 65, Spectrum.zero[k] = C32.zero := fun k => by simp [Spectrum.zero]
  have hb : ∀ p, bankAt (List.replicate 2 Spectrum.zero) p = Spectrum.zero := fun p => by
    match p with
    | 0 => rfl
    | 1 => rfl
    | _ + 2 => rfl
  have hx : (ready 8000).inst.xfBuf = List.replicate 2 Spectrum.zero := rfl
  have hw : (ready 8000).inst.wfBuf = List.replicate 2 Spectrum.zero := rfl
  refine ⟨by decide +kernel, fun p k => ?_, fun p k => ?_⟩
  · rw [hx, hb, hz]; decide
  · rw [hw, hb, hz]; decide

theorem witness_NDelayIdxResult :
    (ready 8000).inst.delayEstCtr = 0 ∧ (after .nDelayIdx (ready 8000)).inst.delayEstCtr ≠ 0 ∧
      (∀ i < 2, (energy (bankAt (ready 8000).inst.wfBuf i)).gt F32.zero = false) ∧
      (energy (Vector.replicate 65 ⟨Lit.one, F32.zero⟩)).gt F32.zero = true := by decide +kernel

theorem witness_NWindowResult :
    (ready 8000).inst.xfwBuf.length = (ready 8000).cfg.nrPart ∧
      ∀ n : Fin 64,
        Time.zero[n.val] = (ready 8000).inst.xBuf[n.val].mul (ready 8000).cfg.win[n.val] ∧
        Time.zero[64 + n.val] = (ready 8000).inst.xBuf[64 + n.val].mul (ready 8000).cfg.win[64 - n.val] ∧
        Time.zero[n.val] = (ready 8000).inst.dBuf[n.val].mul (ready 8000).cfg.win[n.val] ∧
        Time.zero[64 + n.val] = (ready 8000).inst.dBuf[64 + n.val].mul (ready 8000).cfg.win[64 - n.val] ∧
        Time.zero[n.val] = (ready 8000).inst.eBuf[n.val].mul (ready 8000).cfg.win[n.val] ∧
        Time.zero[64 + n.val] = (ready 8000).inst.eBuf[64 + n.val].mul (ready 8000).cfg.win[64 - n.val] := by
  decide +kernel

theorem witness_NClassifyResult : (ready 8000).cfg.Legal := by decide +kernel

/-- The three modes: near end, quiet, and neither. -/
theorem witness_NGainResult :
    (ready 8000).cfg.Legal ∧ ({ Inst.init prm 8000 with stNearState := true } : Inst).stNearState = true ∧
      (ready 8000).inst.stNearState = false ∧ (ready 8000).inst.hNlXdAvgMin.eq Lit.one = true ∧
      Lit.c0_5.eq Lit.one = false := ⟨witness_NClassifyResult, by decide, by decide, by decide, by decide⟩

theorem witness_SuppressionGainBounds :
    ((ready 8000).inst.overDriveSm.mul (ready 8000).cfg.overdriveCurve[64]).gt F32.zero = true ∧
      (ready 8000).blk.hNl[64].gt (ready 8000).blk.hNlFb = false ∧ (ready 8000).blk.hNl[64].inUnit = true ∧
      (f 0x3F4CCCCD).gt (f 0x3ECCCCCD) = true ∧
      ((prm.weightCurve[64].mul (f 0x3ECCCCCD)).add
        ((Lit.one.sub prm.weightCurve[64]).mul (f 0x3F4CCCCD))).inUnit = true := by decide +kernel

theorem witness_NComfortResult :
    (ready 32000).cfg.Legal ∧ (ready 32000).cfg.cnEn = true ∧ (ready 32000).inst.wide ∧
      (ready 32000).cfg.hbCnEn = false ∧ ({ prm with hbCnEn := true } : Params).Legal ∧
      ({ prm with cnEn := false } : Params).Legal := by decide +kernel

/-- Every sample is a number where the tail and the transform are; a NaN in the tail makes one of sample 0. -/
theorem witness_NSynthResult :
    (∀ b : Bool, ((((F32.zeroOf b).mul Lit.ifftScale).mul Lit.one).add F32.zero).isNaN = false) ∧
      (∀ n : Fin 128, ∃ b, (Num.invReal Spectrum.zero)[n] = F32.zeroOf b) ∧
      ∀ v : F32, (v.add F32.nan).isNaN = true := by
  refine ⟨by decide, fun n => ?_, fun v => ?_⟩
  · have h : Num.spectrumIsZero (Num.realEnds Spectrum.zero) = true := by decide +kernel
    exact ⟨(Config.invReal (Num.realEnds Spectrum.zero))[n].sign, by simp [Num.invReal, h]⟩
  · have h : F32.nan.isNaN = true := by decide
    simp only [F32.add, h, Bool.or_true, if_true]

theorem witness_NHighbandResult :
    (ready 32000).cfg.Legal ∧ (ready 32000).inst.wide ∧ ¬(ready 16000).inst.wide ∧
      ¬((ready 32000).cfg.cnEn = true ∧ (ready 32000).cfg.hbCnEn = true) ∧
      (F32.zero.mul F32.zero).isNaN = false ∧ (F32.nan.mul F32.zero).isNaN = true := by decide +kernel

theorem witness_NShiftResult :
    (ready 8000).inst.xfwBuf.length = (ready 8000).cfg.nrPart ∧ 1 < (ready 8000).cfg.nrPart := by decide

theorem witness_MUpdateTrackers :
    (ready 8000).inst.metricsMode = false ∧ (after (.setMetrics true) (ready 8000)).inst.metricsMode = true ∧
      ({ Level.zero with sfrcounter := 3, frcounter := 49 } : Level).sfrcounter + 1 = 4 := by decide

/-- A window that passes its test: 100 blocks counted and a 101st, a mean square of 10000 over the floor. -/
theorem witness_MUpdateStatistics :
    let x := { Inst.init prm 8000 with
      metricsMode := true, echoState := true, stateCounter := 100
      farlevel := { Level.zero with
        sfrcounter := 3, frcounter := 49, frsum := f 0x48F42400, minlevel := Lit.one } }
    let y := (after .mUpdate { ready 8000 with inst := x }).inst
    x.metricsMode = true ∧ x.farlevel.sfrcounter + 1 = 4 ∧ x.farlevel.frcounter + 1 = 50 ∧
      100 < x.stateCounter + 1 ∧ y.farlevel.minlevel.lt prm.noisyPower = true ∧
      y.farlevel.averagelevel.gt (prm.actClean.mul y.farlevel.minlevel) = true := by decide +kernel

theorem witness_StageSuccessors :
    (∀ n ∈ [1#5, 2#5, 4#5, 5#5, 26#5, 29#5, 30#5], n ≠ 0 ∧ goesOn (exec (decodeStage n) (filled 8000 64)) = true) ∧
      goesOn (exec (decodeStage 3#5) (ready 8000)) = true ∧ goesOn (exec (decodeStage 25#5) (ready 8000)) = true ∧
      goesOn (exec (decodeStage 31#5) (filled 8000 80)) = true := by decide +kernel

theorem witness_StepKeepsAlignment :
    (ready 8000).Aligned ∧ goesOn (step (ready 8000)) = true ∧
      ({ ready 8000 with seq := 2, inst := { Inst.init prm 8000 with farBufWritePos := 80 } } : State).Aligned :=
  ⟨fun _ => by decide, by decide, fun _ => by decide⟩

theorem witness_StepKeepsInv : (ready 8000).Inv ∧ goesOn (step (ready 8000)) = true := by
  refine ⟨⟨List.Pairwise.nil, fun _ => ?_, fun _ => ?_, fun h => absurd rfl h, fun _ => rfl⟩, by decide⟩
  · unfold Inst.Inv Inst.Shape Inst.Cursors Inst.RingsBounded Inst.Levels Inst.Counters Level.Counting delayInRange
    decide +kernel
  · unfold Inst.ReadyInv
    decide +kernel

theorem witness_StepKeepsPowersNonneg :
    (ready 8000).PowersInv ∧ powerParams (ready 8000).cfg ∧ goesOn (step (ready 8000)) = true := by
  refine ⟨fun _ _ => ?_, by decide +kernel, by decide⟩
  unfold Inst.PowersClear
  decide +kernel

/-- The two states differ in the metrics mode. -/
theorem witness_MetricsNeverFeedBack :
    (ready 8000).SameAudioBytes { ready 8000 with inst := { Inst.init prm 8000 with metricsMode := true } } ∧
      (ready 8000).life = .ready := ⟨⟨rfl, rfl, fun _ _ => rfl⟩, rfl⟩

theorem witness_KernelSelectorNoEffect :
    Instr.nSynth ≠ .create ∧ Instr.nSynth ≠ .destroy ∧ ∀ rate, Instr.nSynth ≠ .init rate :=
  ⟨by decide, by decide, fun _ h => by cases h⟩

theorem witness_WindowsWrittenOnlyBy :
    goesOn (exec .fPopOut (filled 8000 80)) = true ∧ goesOn (exec .getMetrics (ready 8000)) = true ∧
      goesOn (exec .idle off) = true := by decide

end Sys2Proof.Tests
end

section
/-! PROOFS. The order of the binary32 numbers and the sign of a result. -/

namespace Sys2Proof

/-! ### The order of the numbers -/

theorem F32.le_eq_true {a b : F32} :
    a.le b = true ↔ (a.isNaN = false ∧ b.isNaN = false) ∧ a.key ≤ b.key := by
  simp [F32.le]

theorem F32.lt_eq_true {a b : F32} :
    a.lt b = true ↔ (a.isNaN = false ∧ b.isNaN = false) ∧ a.key < b.key := by
  simp [F32.lt]

theorem F32.le_of_lt {a b : F32} (h : a.lt b = true) : a.le b = true := by
  obtain ⟨hn, hk⟩ := F32.lt_eq_true.1 h
  exact F32.le_eq_true.2 ⟨hn, Int.le_of_lt hk⟩

theorem F32.le_trans {a b c : F32} (hab : a.le b = true) (hbc : b.le c = true) : a.le c = true := by
  obtain ⟨⟨ha, -⟩, h1⟩ := F32.le_eq_true.1 hab
  obtain ⟨⟨-, hc⟩, h2⟩ := F32.le_eq_true.1 hbc
  exact F32.le_eq_true.2 ⟨⟨ha, hc⟩, Int.le_trans h1 h2⟩

/-- Only a NaN is not at most itself. -/
theorem F32.le_self_of_le {a b : F32} (h : a.le b = true) : a.le a = true := by
  obtain ⟨⟨ha, -⟩, -⟩ := F32.le_eq_true.1 h
  exact F32.le_eq_true.2 ⟨⟨ha, ha⟩, Int.le_refl _⟩

theorem F32.le_max_right {b : F32} (a : F32) (hb : b.le b = true) : b.le (a.max b) = true := by
  unfold F32.max F32.gt
  split
  · next h => exact F32.le_of_lt h
  · exact hb

theorem F32.min_le_right {b : F32} (a : F32) (hb : b.le b = true) : (a.min b).le b = true := by
  unfold F32.min
  split
  · next h => exact F32.le_of_lt h
  · exact hb

theorem Lit.zero_le_one : F32.zero.le Lit.one = true := by decide

theorem Lit.one_le_one : Lit.one.le Lit.one = true := by decide

theorem Lit.minOverdrive_le_self : Lit.minOverdrive.le Lit.minOverdrive = true := by decide

/-! ### The sign of a result -/

@[simp] theorem F32.signClear_eq_true {a : F32} : a.signClear = true ↔ a.sign = false := by
  simp [F32.signClear]

@[simp] theorem F32.nan_sign : F32.nan.sign = false := rfl

@[simp] theorem F32.zero_sign : F32.zero.sign = false := rfl

@[simp] theorem F32.zeroOf_sign (s : Bool) : (F32.zeroOf s).sign = s := by cases s <;> rfl

@[simp] theorem F32.infOf_sign (s : Bool) : (F32.infOf s).sign = s := by cases s <;> rfl

@[simp] theorem F32.pack_sign (s : Bool) (e f : Nat) : (F32.pack s e f).sign = s := by
  show (BitVec.ofBool s ++ BitVec.ofNat 8 e ++ BitVec.ofNat 23 f).getLsbD 31 = s
  rw [BitVec.getLsbD_append, BitVec.getLsbD_append]
  cases s <;> rfl

/-- Rounding keeps the sign it is given, in every range of the exponent. -/
@[simp] theorem F32.round_sign (s : Bool) (m : Nat) (e : Int) : (F32.round s m e).sign = s := by
  unfold F32.round
  split
  · exact F32.zeroOf_sign s
  · dsimp only
    split_ifs <;> simp

theorem F32.ofInt_sign {n : Int} (h : 0 ≤ n) : (F32.ofInt n).sign = false := by
  simp [F32.ofInt, Int.not_lt.2 h]

/-- A product of factors with equal signs has its sign clear, also where it is a NaN or infinite. -/
theorem F32.mul_sign {a b : F32} (h : a.sign = b.sign) : (a.mul b).sign = false := by
  unfold F32.mul
  split_ifs <;> simp [h]

theorem F32.scaledInt_nonneg {a : F32} (h : a.sign = false) (e0 : Int) : 0 ≤ a.scaledInt e0 := by
  simp only [F32.scaledInt, h]
  exact Int.natCast_nonneg _

theorem F32.add_sign {a b : F32} (ha : a.sign = false) (hb : b.sign = false) :
    (a.add b).sign = false := by
  have hsum (e0 : Int) : ¬ a.scaledInt e0 + b.scaledInt e0 < 0 :=
    Int.not_lt.2 (Int.add_nonneg (F32.scaledInt_nonneg ha e0) (F32.scaledInt_nonneg hb e0))
  unfold F32.add
  split_ifs <;> simp [ha, hb, hsum]

theorem F32.max_sign {a b : F32} (ha : a.sign = false) (hb : b.sign = false) :
    (a.max b).sign = false := by
  unfold F32.max
  split
  · exact ha
  · exact hb

theorem C32.mag2_sign (x : C32) : x.mag2.sign = false :=
  F32.add_sign (F32.mul_sign rfl) (F32.mul_sign rfl)

theorem PerMult.get_sign {x : PerMult F32} (h1 : x.at1.sign = false) (h2 : x.at2.sign = false)
    (mult : Nat) : (x.get mult).sign = false := by
  unfold PerMult.get
  split
  · exact h1
  · exact h2

namespace Machine

theorem smooth_sign {g0 g1 old new : F32} (h0 : g0.sign = false) (h1 : g1.sign = false)
    (hold : old.sign = false) (hnew : new.sign = false) : (smooth g0 g1 old new).sign = false :=
  F32.add_sign (F32.mul_sign (h0.trans hold.symm)) (F32.mul_sign (h1.trans hnew.symm))

theorem smoothPow_sign {old scale : F32} (hold : old.sign = false) (hscale : scale.sign = false)
    (x : C32) : (smoothPow old scale x).sign = false :=
  smooth_sign (g0 := Lit.c0_9) rfl hscale hold x.mag2_sign

end Machine
end Sys2Proof
end

section
/-! PROOFS. All that a step can do: the fetch, the host moves, the stages and the commands, one inversion lemma
for each. -/

namespace Sys2Proof

/-- The host commands (spec/30_encoding.md R102); the other operations are the stages and IDLE. -/
def Instr.isCommand : Instr → Bool
  | .create | .init _ | .processFrame _ _ | .setMetrics _ | .getMetrics | .destroy => true
  | _ => false

namespace Machine

/-! ### What serving a host move can do -/

/-- `m` is a reset input, due or not. -/
def HostMove.isReset : HostMove → Bool
  | .reset _ _ => true
  | _ => false

/-- All that a host move other than a reset input can do between commands, as far as the machine goes on. -/
inductive Served (s : State) : Fetched → Prop
  /-- A legal word written to CMD starts its command. -/
  | command (w : Word) (i : Instr) (hi : decodeCommand w = .ok i) :
      Served s (.run i { s with cmd := w, done := false })
  /-- An illegal word written to CMD raises its fault. -/
  | illegal (w : Word) (c : FaultCode) : Served s (.done (raise c { s with cmd := w, done := false }))
  /-- A read returns a word. -/
  | read (r : HostReply) : Served s (.done { s with reply := r })
  /-- A write elsewhere changes at most the windows. -/
  | store (m : Memory) (hm : s.mem.wf → m.wf) : Served s (.done (s.setMem m))
  | fault (r : Fault) : Served s (.fault r)
  | refuse (r : Refusal) : Served s (.refuse r)

theorem startCommand_served (w : Word) (s : State) : Served s (startCommand w s) := by
  obtain ⟨i, hi, h⟩ | ⟨-, h⟩ | ⟨-, h⟩ := startCommand_cases w s
  · exact h ▸ .command w i hi
  · exact h ▸ .illegal w .opcode
  · exact h ▸ .illegal w .encoding

theorem hostStore_eq_setMem (s : State) (a : Nat) (w : Word) :
    s.hostStore a w = s.setMem (s.hostStore a w).mem := by
  unfold State.hostStore
  split
  · rfl
  · split <;> rfl

theorem serveWrite_served (a : Nat) (w : Word) (s : State) : Served s (serveWrite a w s) := by
  unfold serveWrite
  split
  · exact startCommand_served w s
  · split
    · rw [hostStore_eq_setMem]
      exact .store _ (State.hostStore_wf s a w)
    · exact .fault _

theorem serveRead_served (a : Nat) (f : Word → HostReply) (s : State) : Served s (serveRead a f s) := by
  unfold serveRead
  split
  · exact .read _
  · exact .fault _

theorem serve_served {m : HostMove} (hm : m.isReset = false) (s : State) : Served s (serve m s) := by
  cases m with
  | read a => exact serveRead_served a _ s
  | write a w => exact serveWrite_served a w s
  | busRead a n =>
    simp only [serve]
    split
    · exact serveRead_served _ _ s
    · exact .refuse _
  | busWrite a bs =>
    simp only [serve]
    split
    · exact serveWrite_served _ _ s
    · exact .refuse _
  | reset n simd => cases hm

/-! ### All that a step can do -/

/-- No reset input waits in the queue, due or not. -/
def noResets (q : List HostMove) : Prop := ∀ k simd, HostMove.reset k simd ∉ q

/-- What a fetch finds, by the head of the host's queue. -/
inductive FetchCase (s : State) : Prop
  /-- The stage that SEQ names runs; at most a reset input has come a step nearer. -/
  | stage (q : List HostMove) (hq : noResets s.hostQ → noResets q)
      (h : fetch s = .run (decodeStage s.seq) { s with hostQ := q })
  /-- A reset input is due. -/
  | reset (q : List HostMove) (simd : Bool) (hq : ¬ noResets s.hostQ)
      (h : fetch s = .done (hardwareReset simd { s with hostQ := q }))
  /-- Between commands a host move is served. -/
  | served (q : List HostMove) (f : Fetched) (hseq : s.seq = 0) (hq : noResets s.hostQ → noResets q)
      (hf : Served { s with hostQ := q } f) (h : fetch s = f)

theorem not_noResets_cons (n : Nat) (simd : Bool) (q : List HostMove) :
    ¬ noResets (.reset n simd :: q) := fun h => h n simd (by simp)

theorem noResets_tail {m : HostMove} {q : List HostMove} (h : noResets (m :: q)) : noResets q :=
  fun k simd hk => h k simd (List.mem_cons_of_mem _ hk)

theorem fetch_nil {s : State} (hq : s.hostQ = []) : fetch s = .run (decodeStage s.seq) s := by
  unfold fetch
  rw [hq]

theorem fetch_cases (s : State) : FetchCase s := by
  cases hq : s.hostQ with
  | nil => exact .stage s.hostQ id (fetch_nil hq)
  | cons m q =>
    by_cases hm : m.isReset = true
    · cases m with
      | reset n simd =>
        have hno : ¬ noResets s.hostQ := hq ▸ not_noResets_cons n simd q
        cases n with
        | zero => exact .reset q simd hno (by unfold fetch; rw [hq])
        | succ n => exact .stage (.reset n simd :: q) (absurd · hno) (by unfold fetch; rw [hq])
      | _ => cases hm
    · have hne : ∀ n simd, m ≠ .reset n simd := by
        rintro n simd rfl
        exact hm rfl
      by_cases hseq : s.seq = 0
      · exact .served q _ hseq (fun h => noResets_tail (hq ▸ h)) (serve_served (by simpa using hm) _)
          (fetch_idle hq hseq hne)
      · refine .stage s.hostQ id (fetch_busy (fun n simd q' h => ?_) hseq)
        exact hne n simd (List.cons.inj (hq.symm.trans h)).1

/-- All that a step can do, where the machine goes on. -/
inductive StepCase (s t : State) : Prop
  /-- The stage that SEQ names (IDLE between commands) runs. -/
  | stage (q : List HostMove) (hq : noResets s.hostQ → noResets q)
      (h : exec (decodeStage s.seq) { s with hostQ := q } = .next t)
  /-- The hardware reset. -/
  | reset (q : List HostMove) (simd : Bool) (hq : ¬ noResets s.hostQ)
      (h : t = hardwareReset simd { s with hostQ := q })
  /-- A legal word written to CMD runs its command. -/
  | command (q : List HostMove) (w : Word) (i : Instr) (hseq : s.seq = 0)
      (hq : noResets s.hostQ → noResets q) (hi : decodeCommand w = .ok i)
      (h : exec i { s with hostQ := q, cmd := w, done := false } = .next t)
  /-- An illegal word written to CMD raises a fault. -/
  | illegal (q : List HostMove) (w : Word) (c : FaultCode) (hq : noResets s.hostQ → noResets q)
      (h : t = raise c { s with hostQ := q, cmd := w, done := false })
  /-- A host access to anything but CMD. -/
  | access (q : List HostMove) (m : Memory) (r : HostReply) (hq : noResets s.hostQ → noResets q)
      (hm : s.mem.wf → m.wf) (h : t = { s with hostQ := q, mem := m, reply := r })

theorem step_cases {s t : State} (h : step s = .next t) : StepCase s t := by
  unfold step at h
  cases fetch_cases s with
  | stage q hq hf =>
    rw [hf] at h
    exact .stage q hq h
  | reset q simd hq hf =>
    rw [hf] at h
    cases h
    exact .reset q simd hq rfl
  | served q f hseq hq hf hfetch =>
    rw [hfetch] at h
    cases hf with
    | command w i hi => exact .command q w i hseq hq hi h
    | illegal w c => cases h; exact .illegal q w c hq rfl
    | read r => cases h; exact .access q s.mem r hq id rfl
    | store m hm => cases h; exact .access q m s.reply hq hm rfl
    | fault r => cases h
    | refuse r => cases h

/-! ### All that a stage can do -/

theorem decodeStage_not_command (n : BitVec 5) : (decodeStage n).isCommand = false := by
  unfold decodeStage
  split <;> rfl

/-! #### The stages with more than one outcome, each said once -/

theorem execFEnqueue_next {s t : State} (h : execFEnqueue s = .next t) :
    ∃ far near nearH,
      rbWrite s.inst.farFr s.blk.farFr80.toList = some far ∧
      rbWrite s.inst.nearFr ((List.range FRAME_LEN).map (s.winRead .nearIn)) = some near ∧
      doneIf s.inst.highBand s.inst.nearFrH
        (rbWrite s.inst.nearFrH ((List.range FRAME_LEN).map (s.winRead .nearHIn))) = some nearH ∧
      t = { s with inst := { s.inst with farFr := far, nearFr := near, nearFrH := nearH }, seq := 4 } := by
  unfold execFEnqueue at h
  dsimp only at h
  split at h
  · next far near nearH hfar hnear hnearH =>
    cases h
    exact ⟨far, near, nearH, hfar, hnear, hnearH, rfl⟩
  · cases h

theorem execBPop_next {s t : State} (h : execBPop s = .next t) :
    ∃ far near nearH b,
      rbRead s.inst.farFr PART_LEN = some far ∧ rbRead s.inst.nearFr PART_LEN = some near ∧
      doneIf s.inst.highBand (s.blk.nearBlH.toList, s.inst.nearFrH) (rbRead s.inst.nearFrH PART_LEN) =
        some nearH ∧ b.d = s.blk.d ∧
      t = { s with
        blk := b, inst := { s.inst with farFr := far.2, nearFr := near.2, nearFrH := nearH.2 }, seq := 6 } := by
  unfold execBPop at h
  split at h
  · next far near nearH hfar hnear hnearH =>
    cases h
    exact ⟨far, near, nearH, _, hfar, hnear, hnearH, by rfl, rfl⟩
  · cases h

theorem execBPush_next {s t : State} (h : execBPush s = .next t) :
    ∃ out outH,
      rbWrite s.inst.outFr s.blk.outBl.toList = some out ∧
      doneIf s.inst.highBand s.inst.outFrH (rbWrite s.inst.outFrH s.blk.outBlH.toList) = some outH ∧
      t = { s with inst := { s.inst with outFr := out, outFrH := outH }, seq := 4 } := by
  unfold execBPush at h
  split at h
  · next out outH hout houtH =>
    cases h
    exact ⟨out, outH, hout, houtH, rfl⟩
  · cases h

theorem execFStuff_next {s t : State} (h : execFStuff s = .next t) :
    ∃ out outH,
      doneIf (decide (0 < FRAME_LEN - rbFill s.inst.outFr)) s.inst.outFr
        (rbStuff s.inst.outFr (FRAME_LEN - rbFill s.inst.outFr)) = some out ∧
      doneIf (s.inst.highBand && decide (0 < FRAME_LEN - rbFill s.inst.outFr)) s.inst.outFrH
        (rbStuff s.inst.outFrH (FRAME_LEN - rbFill s.inst.outFr)) = some outH ∧
      t = { s with inst := { s.inst with outFr := out, outFrH := outH }, seq := 31 } := by
  unfold execFStuff at h
  dsimp only at h
  split at h
  · next out outH hout houtH =>
    cases h
    exact ⟨out, outH, hout, houtH, rfl⟩
  · cases h

theorem execFPopOut_next {s t : State} (h : execFPopOut s = .next t) :
    ∃ out outH m,
      rbRead s.inst.outFr FRAME_LEN = some out ∧
      doneIf s.inst.highBand ([], s.inst.outFrH) (rbRead s.inst.outFrH FRAME_LEN) = some outH ∧
      m = (if s.inst.highBand then (s.mem.writeFrame .out out.1).writeFrame .outH outH.1
        else s.mem.writeFrame .out out.1) ∧
      t = complete { s with inst := { s.inst with outFr := out.2, outFrH := outH.2 }, mem := m } := by
  unfold execFPopOut at h
  split at h
  · next out outH hout houtH =>
    cases h
    exact ⟨out, outH, _, hout, houtH, rfl, rfl⟩
  · cases h

/-- B_NOISE changes the two minima, the choice of the noise power, and the start-up counter up to its bound
(spec/41_adaptive_filter.md R155, R156). -/
theorem execBNoise_next {s t : State} (h : execBNoise s = .next t) :
    ∃ dMin dInit ctr sel,
      (ctr = s.inst.noiseEstCtr ∨ ctr ≤ noiseInitBlocks s.inst.mult) ∧
      t = { s with
        inst := { s.inst with
          dMinPow := dMin, dInitMinPow := dInit, noiseEstCtr := ctr, noiseSel := sel }
        seq := 10 } := by
  obtain rfl := Host.Outcome.next.inj h
  dsimp only
  split
  · next hlt => exact ⟨_, _, _, _, .inr hlt, rfl⟩
  · exact ⟨_, _, _, _, .inl rfl, rfl⟩

theorem execNSynth_next {s t : State} (h : execNSynth s = .next t) :
    ∃ outBuf outBl, t = raise .numeric { s with inst := { s.inst with outBuf := outBuf } } ∨
      t = { s with
        inst := { s.inst with outBuf := outBuf }, blk := { s.blk with outBl := outBl }, seq := 26 } := by
  obtain rfl := Host.Outcome.next.inj h
  dsimp only [State.setInst]
  split
  · exact ⟨_, s.blk.outBl, .inl rfl⟩
  · exact ⟨_, _, .inr rfl⟩

theorem execNHighband_next {s t : State} (h : execNHighband s = .next t) :
    t = raise .numeric s ∨ ∃ outBlH, t = { s with blk := { s.blk with outBlH := outBlH }, seq := 27 } := by
  obtain rfl := Host.Outcome.next.inj h
  split
  · split
    · exact .inl rfl
    · exact .inr ⟨_, rfl⟩
  · exact .inr ⟨s.blk.outBlH, rfl⟩

/-- All that a stage can do, where the machine goes on: it changes the filter and the values between the stages, but
not the delay of the command, or ends the command with ERR_NUMERIC, or ends it after writing windows. -/
inductive StageCase (s : State) : State → Prop
  | goesOn (x : Inst) (b : Blk) (n : BitVec 5) (draws : Nat) (hd : b.d = s.blk.d) :
      StageCase s { s with inst := x, blk := b, seq := n, draws := draws }
  | faults (x : Inst) : StageCase s (raise .numeric { s with inst := x })
  | ends (x : Inst) (m : Memory) (hm : s.mem.wf → m.wf) :
      StageCase s (complete { s with inst := x, mem := m })

/-- What F_POP_OUT writes leaves the memory canonical. -/
theorem popOut_wf {m : Memory} {wide : Bool} {out outH : List Sample} (hm : m.wf) :
    (if wide then (m.writeFrame .out out).writeFrame .outH outH else m.writeFrame .out out).wf := by
  split
  · exact Memory.writeFrame_wf _ _ _ (Memory.writeFrame_wf _ _ _ hm)
  · exact Memory.writeFrame_wf _ _ _ hm

/-- All that a stage, or IDLE, can do; the stages without a lemma of their own always go on. -/
theorem exec_stage_case {i : Instr} (hi : i.isCommand = false) {s t : State}
    (h : exec i s = .next t) : StageCase s t := by
  cases i with
  | create | init | processFrame | setMetrics | getMetrics | destroy => cases hi
  | fEnqueue =>
    obtain ⟨_, _, _, -, -, -, rfl⟩ := execFEnqueue_next h
    exact .goesOn _ _ _ _ rfl
  | bPop =>
    obtain ⟨_, _, _, _, -, -, -, hd, rfl⟩ := execBPop_next h
    exact .goesOn _ _ _ _ hd
  | bPush =>
    obtain ⟨_, _, -, -, rfl⟩ := execBPush_next h
    exact .goesOn _ _ _ _ rfl
  | fStuff =>
    obtain ⟨_, _, -, -, rfl⟩ := execFStuff_next h
    exact .goesOn _ _ _ _ rfl
  | fPopOut =>
    obtain ⟨_, _, _, -, -, hm, rfl⟩ := execFPopOut_next h
    exact .ends _ _ (hm ▸ popOut_wf)
  | nSynth =>
    obtain ⟨_, _, rfl | rfl⟩ := execNSynth_next h
    · exact .faults _
    · exact .goesOn _ _ _ _ rfl
  | nHighband =>
    obtain rfl | ⟨_, rfl⟩ := execNHighband_next h
    · exact .faults s.inst
    · exact .goesOn _ _ _ _ rfl
  | _ => cases h; exact .goesOn _ _ _ _ rfl

/-! ### All that a command can do -/

/-- A decoding that succeeds only without reserved bits. -/
theorem eq_of_ite_eq_ok {c : Prop} [Decidable c] {i j : Instr} {e : DecodeError}
    (h : (if c then Except.ok i else Except.error e) = .ok j) : i = j := by
  split at h
  · exact Except.ok.inj h
  · cases h

/-- A word decodes to a command whose operands fit their fields. -/
theorem decodeCommand_wf {w : Word} {i : Instr} (h : decodeCommand w = .ok i) :
    i.isCommand = true ∧ i.WellFormed := by
  unfold decodeCommand at h
  split at h
  · exact eq_of_ite_eq_ok h ▸ ⟨rfl, rfl⟩
  · obtain rfl := Except.ok.inj h
    exact ⟨rfl, decide_eq_true (imm24Field w).isLt⟩
  · obtain rfl := Except.ok.inj h
    exact ⟨rfl, decide_eq_true ⟨(imm23Field w).le_toInt, (imm23Field w).toInt_lt⟩⟩
  · exact eq_of_ite_eq_ok h ▸ ⟨rfl, rfl⟩
  · exact eq_of_ite_eq_ok h ▸ ⟨rfl, rfl⟩
  · exact eq_of_ite_eq_ok h ▸ ⟨rfl, rfl⟩
  · cases h

/-- The fields that SET_METRICS leaves (spec/45_metrics.md R280, R281). -/
def Inst.withMetrics (p : Params) (enable : Bool) (x : Inst) : Inst :=
  { (if enable then Inst.initMetrics p x else x) with metricsMode := enable }

/-- All that a command with operands in range can do: it is refused with a fault, or CREATE or INIT fails, or it is
done, or PROCESS_FRAME starts its stages. -/
inductive CommandCase (s : State) : State → Prop
  | rejected (c : FaultCode) : CommandCase s (raise c s)
  | failed (c : FaultCode) (draws : Nat) : CommandCase s (failLife c { s with draws := draws })
  | created : CommandCase s (complete ((s.drawn.setInst (Inst.zero s.cfg)).setLife .created))
  | inited (rate : Nat) (hr : validRate rate = true) :
      CommandCase s (complete ((s.drawn.setInst (Inst.init s.cfg rate)).setLife .ready))
  | destroyed : CommandCase s (complete (s.setLife .off).loseInst)
  | starts (d : Int) (hlife : s.life = .ready) (hd : delayInRange d) :
      CommandCase s { s with blk := { s.blk with d := d }, seq := 1 }
  | metrics (enable : Bool) (hlife : s.life = .ready) :
      CommandCase s (complete (s.setInst (s.inst.withMetrics s.cfg enable)))
  | exported (m : Memory) (hm : s.mem.wf → m.wf) : CommandCase s (complete (s.setMem m).drawn)

theorem execCreate_case {s t : State} (h : execCreate s = .next t) : CommandCase s t := by
  obtain rfl := Host.Outcome.next.inj h
  split
  · unfold createWith
    split
    · exact .created
    · exact .failed .resource (s.draws + 1)
  · exact .rejected .state

theorem execInit_case {rate : Nat} {s t : State} (h : execInit rate s = .next t) :
    CommandCase s t := by
  obtain rfl := Host.Outcome.next.inj h
  split
  · unfold initWith
    split
    · exact .failed .badRate s.draws
    · next hr =>
      split
      · exact .failed .cfgUnsupported s.draws
      · split
        · exact .failed .resource (s.draws + 1)
        · exact .inited rate (by simpa using hr)
  · exact .rejected .state

theorem execProcessFrame_case {hb : Bool} {d : Int} (hd : delayInRange d) {s t : State}
    (h : execProcessFrame hb d s = .next t) : CommandCase s t := by
  obtain rfl := Host.Outcome.next.inj h
  split
  · exact .rejected .state
  · next hlife =>
    split
    · exact .rejected .nullHighband
    · exact .starts d (not_not.1 hlife) hd

theorem execSetMetrics_case {enable : Bool} {s t : State} (h : execSetMetrics enable s = .next t) :
    CommandCase s t := by
  obtain rfl := Host.Outcome.next.inj h
  split
  · next hlife => exact .metrics enable hlife
  · exact .rejected .state

theorem execGetMetrics_case {s t : State} (h : execGetMetrics s = .next t) : CommandCase s t := by
  obtain rfl := Host.Outcome.next.inj h
  split
  · exact .exported _ (Memory.writeElems_wf _ _ _)
  · exact .rejected .state

theorem execDestroy_case {s t : State} (h : execDestroy s = .next t) : CommandCase s t := by
  obtain rfl := Host.Outcome.next.inj h
  split
  · exact .rejected .state
  · exact .destroyed

theorem exec_command_case {i : Instr} (hi : i.isCommand = true) (hwf : i.WellFormed)
    {s t : State} (h : exec i s = .next t) : CommandCase s t := by
  cases i with
  | create => exact execCreate_case h
  | init rate => exact execInit_case h
  | processFrame hb d =>
    have hd : -2 ^ 22 ≤ d ∧ d < 2 ^ 22 := of_decide_eq_true hwf
    exact execProcessFrame_case hd h
  | setMetrics enable => exact execSetMetrics_case h
  | getMetrics => exact execGetMetrics_case h
  | destroy => exact execDestroy_case h
  | _ => cases hi

end Machine

end Sys2Proof
end

section
/-! PROOFS. A step runs the stage that SEQ names (O4), and FAULT is sticky (O13). -/

namespace Sys2Proof.Machine

/-! ### Settled: a step runs the stage that SEQ names -/

/-- Settles O4: with no reset input at the head of the queue the fetch is the stage, both inside a command and with
an empty queue. -/
theorem stepRunsStage : Obligations.StepRunsStage := by
  intro s hq hs
  have hfetch : fetch s = .run (decodeStage s.seq) s := by
    by_cases hseq : s.seq = 0
    · exact fetch_nil (hs.resolve_left (not_not.2 hseq))
    · exact fetch_busy hq hseq
  unfold step
  rw [hfetch]

/-! ### Settled: FAULT is sticky -/

/-- The machine keeps a fault from `s` to `t`: FAULT stays 1 and ERR stays as it is (spec/10_state.md R24, R25). -/
def State.FaultKept (s t : State) : Prop := s.fault = true → t.fault = true ∧ t.err = s.err

theorem raise_faultKept (c : FaultCode) (s : State) : s.FaultKept (raise c s) :=
  fun h => ⟨rfl, if_pos h⟩

theorem StageCase.faultKept {s t : State} (h : StageCase s t) :
    t.hostQ = s.hostQ ∧ s.FaultKept t := by
  cases h with
  | goesOn | ends => exact ⟨rfl, fun h => ⟨h, rfl⟩⟩
  | faults x => exact ⟨rfl, raise_faultKept .numeric (s.setInst x)⟩

theorem CommandCase.faultKept {s t : State} (h : CommandCase s t) :
    t.hostQ = s.hostQ ∧ s.FaultKept t := by
  cases h with
  | rejected c => exact ⟨rfl, raise_faultKept c s⟩
  | failed c n => exact ⟨rfl, raise_faultKept c s⟩
  | created | inited | destroyed | starts | metrics | exported => exact ⟨rfl, fun h => ⟨h, rfl⟩⟩

/-- Without a reset input in the queue a step keeps a fault, and puts no reset input there. -/
theorem step_faultKept {s t : State} (hq : noResets s.hostQ) (h : step s = .next t) :
    noResets t.hostQ ∧ s.FaultKept t := by
  cases step_cases h with
  | stage q hq' h =>
    obtain ⟨htq, hkept⟩ := (exec_stage_case (decodeStage_not_command _) h).faultKept
    exact ⟨htq ▸ hq' hq, hkept⟩
  | reset q simd hq' => exact absurd hq hq'
  | command q w i _ hq' hi h =>
    obtain ⟨hcmd, hwf⟩ := decodeCommand_wf hi
    obtain ⟨htq, hkept⟩ := (exec_command_case hcmd hwf h).faultKept
    exact ⟨htq ▸ hq' hq, hkept⟩
  | illegal q w c hq' h => exact h ▸ ⟨hq' hq, fun hf => raise_faultKept c _ hf⟩
  | access q m r hq' _ h => exact h ▸ ⟨hq' hq, fun hf => ⟨hf, rfl⟩⟩

/-- Settles O13, by induction on the number of steps. -/
theorem faultIsSticky : Obligations.FaultIsSticky := by
  intro n
  induction n with
  | zero =>
    intro s t _ h hf
    cases h
    exact ⟨hf, rfl⟩
  | succ n ih =>
    intro s t hq h hf
    unfold runSteps at h
    split at h
    · next u hstep =>
      obtain ⟨huq, hkept⟩ := step_faultKept hq hstep
      obtain ⟨hfu, herr⟩ := hkept hf
      obtain ⟨hft, herr'⟩ := ih u t huq h hfu
      exact ⟨hft, herr'.trans herr⟩
    · cases h
    · cases h

end Sys2Proof.Machine
end

section
/-! PROOFS. The stages of a running command keep the filter in order. -/

namespace Sys2Proof.Machine

/-! ### What the shared operations keep of the invariant -/

/-- What stands after an operation under a condition has a property that both results have. -/
theorem doneIf_keeps {α : Type} {P : α → Prop} {c : Bool} {dflt x : α} {r : Option α}
    (h : doneIf c dflt r = some x) (hdflt : P dflt) (hr : ∀ y, r = some y → P y) : P x := by
  obtain ⟨-, hx⟩ | ⟨-, rfl⟩ := doneIf_eq_some.1 h
  · exact hr x hx
  · exact hdflt

theorem rbRead_rest_le {q : List Sample} {n : Nat} {r : List Sample × List Sample}
    (h : rbRead q n = some r) (hq : rbFill q ≤ RB_CAP) : rbFill r.2 ≤ RB_CAP := by
  obtain ⟨-, hfill⟩ := rbRead_fill h
  omega

theorem bestPartition_lt {n : Nat} (hn : 0 < n) (wfBuf : List Spectrum) :
    bestPartition n wfBuf < n := by
  unfold bestPartition
  refine List.foldlRecOn (motive := fun best : Nat × F32 => best.1 < n) _ _ hn fun best hbest i hi => ?_
  dsimp only
  split
  · exact List.mem_range.1 hi
  · exact hbest

theorem multOf_pos (rate : Nat) : 0 < multOf rate := by
  unfold multOf
  split <;> decide

/-! ### The level trackers and the echo counter -/

/-- A tracker with a block added to its running frame level (spec/45_metrics.md R284). -/
def Level.addBlock (l : Level) (b : Block16) : Level :=
  { l with sfrsum := sumSquares l.sfrsum b, sfrcounter := l.sfrcounter + 1 }

theorem Level.update_of_open {l : Level} (b : Block16) (h : l.sfrcounter + 1 ≠ SUB_COUNT_LEN) :
    l.update b = (l.addBlock b, false) := if_neg h

theorem Level.update_of_frame {l : Level} (b : Block16) (h : l.sfrcounter + 1 = SUB_COUNT_LEN)
    (hf : l.frcounter + 1 ≠ COUNT_LEN) : l.update b = ((l.addBlock b).closeFrame, false) :=
  (if_pos h).trans (if_neg hf)

theorem Level.update_of_average {l : Level} (b : Block16) (h : l.sfrcounter + 1 = SUB_COUNT_LEN)
    (hf : l.frcounter + 1 = COUNT_LEN) :
    l.update b = ((l.addBlock b).closeFrame.closeAverage, true) := (if_pos h).trans (if_pos hf)

/-- A block is counted in the sub-counter of the frame level, or completes the frame level; the average level
it may complete is what makes the tracker fresh (spec/45_metrics.md R284). -/
theorem Level.update_counting {l : Level} (hl : l.Counting) (b : Block16) :
    (l.update b).1.Counting ∧ ((l.update b).2 = false →
      SUB_COUNT_LEN * (l.update b).1.frcounter + (l.update b).1.sfrcounter =
        SUB_COUNT_LEN * l.frcounter + l.sfrcounter + 1) := by
  obtain ⟨hsub, hframe⟩ := hl
  have hsub0 : 0 < SUB_COUNT_LEN := Nat.zero_lt_of_lt hsub
  have hframe0 : 0 < COUNT_LEN := Nat.zero_lt_of_lt hframe
  by_cases h : l.sfrcounter + 1 = SUB_COUNT_LEN
  · by_cases hf : l.frcounter + 1 = COUNT_LEN
    · rw [Level.update_of_average b h hf]
      exact ⟨⟨hsub0, hframe0⟩, fun h => by cases h⟩
    · rw [Level.update_of_frame b h hf]
      refine ⟨⟨hsub0, Nat.lt_of_le_of_ne hframe hf⟩, fun _ => ?_⟩
      simp only [Level.closeFrame, Level.addBlock, Nat.mul_succ]
      omega
  · rw [Level.update_of_open b h]
    exact ⟨⟨Nat.lt_of_le_of_ne hsub h, hframe⟩, fun _ => rfl⟩

theorem Inst.updateStats_eq (p : Params) (x : Inst) :
    ∃ erl aNlp erle, x.updateStats p = { x with erl := erl, aNlp := aNlp, erle := erle } := by
  unfold Inst.updateStats
  split
  · exact ⟨_, _, _, rfl⟩
  · exact ⟨_, _, _, rfl⟩

/-- All that a block changes with the metrics enabled: the trackers, three records, and the echo counter, which grows
by at most 1, and is 0 after a block that completes a window (spec/45_metrics.md R290, R292). -/
theorem Inst.measure_eq (p : Params) (b : Blk) (x : Inst) :
    ∃ erl aNlp erle n,
      x.measure p b = { x with
        farlevel := (x.farlevel.update b.farBl).1, nearlevel := (x.nearlevel.update b.nearBl).1
        linoutlevel := (x.linoutlevel.update b.eSat).1, nlpoutlevel := (x.nlpoutlevel.update b.outBl).1
        erl := erl, aNlp := aNlp, erle := erle, stateCounter := n } ∧
      (n = 0 ∨ ((x.farlevel.update b.farBl).2 = false ∧ n ≤ x.stateCounter + 1)) := by
  unfold Inst.measure
  dsimp only
  split
  · obtain ⟨erl, aNlp, erle, h⟩ := Inst.updateStats_eq p _
    rw [h]
    exact ⟨erl, aNlp, erle, 0, rfl, .inl rfl⟩
  · next hfresh =>
    refine ⟨x.erl, x.aNlp, x.erle, _, rfl, .inr ⟨by simpa using hfresh, ?_⟩⟩
    split <;> omega

theorem Inst.measure_counters (p : Params) (b : Blk) {x : Inst} (hx : x.Counters) :
    (x.measure p b).Counters := by
  obtain ⟨hnoise, hmin, hfar, hnear, hlin, hnlp, hecho⟩ := hx
  obtain ⟨erl, aNlp, erle, n, h, hn⟩ := Inst.measure_eq p b x
  obtain ⟨hfar', hblocks⟩ := Level.update_counting hfar b.farBl
  rw [h]
  refine ⟨hnoise, hmin, hfar', (Level.update_counting hnear _).1, (Level.update_counting hlin _).1,
    (Level.update_counting hnlp _).1, ?_⟩
  obtain rfl | ⟨hfresh, hle⟩ := hn
  · exact Nat.zero_le _
  · have := hblocks hfresh
    dsimp only
    omega

/-! ### The stages keep a filter in READY in order -/

/-- What every stage of a running command starts from: the filter in order with the constants of its rate, and a
delay that the command's word can carry. -/
def State.InOrder (s : State) : Prop :=
  s.inst.Inv s.cfg ∧ s.inst.ReadyInv ∧ delayInRange s.blk.d

/-- An operation that keeps the command's delay and changes no field of the filter but the signals (histories,
spectra, powers, the output tail), the divergence flag, the seed, and a bank or the delay buffer in its length keeps
the filter in order. -/
theorem State.InOrder.of_signals {s t : State} (hs : s.InOrder)
    {farBuf : List Sample} {xBuf dBuf eBuf dBufH : Time} {xfBuf wfBuf xfwBuf : List Spectrum}
    {xPow dPow sd se sx : Bins} {sde sxd : Spectrum} {outBuf : Half} {flag : Bool} {seed : BitVec 32}
    (hinst : t.inst = { s.inst with
      farBuf := farBuf, xBuf := xBuf, dBuf := dBuf, eBuf := eBuf, dBufH := dBufH
      xfBuf := xfBuf, wfBuf := wfBuf, xfwBuf := xfwBuf
      xPow := xPow, dPow := dPow, sd := sd, se := se, sx := sx, sde := sde, sxd := sxd
      outBuf := outBuf, divergeState := flag, seed := seed })
    (hcfg : t.cfg = s.cfg) (hd : t.blk.d = s.blk.d)
    (hfar : farBuf.length = s.inst.farBuf.length) (hxf : xfBuf.length = s.inst.xfBuf.length)
    (hwf : wfBuf.length = s.inst.wfBuf.length) (hxfw : xfwBuf.length = s.inst.xfwBuf.length) :
    t.InOrder := by
  obtain ⟨⟨⟨hfar', hxf', hwf', hxfw'⟩, hrest⟩, hready, hd'⟩ := hs
  unfold State.InOrder
  rw [hinst, hcfg, hd]
  exact ⟨⟨⟨hfar.trans hfar', hxf.trans hxf', hwf.trans hwf', hxfw.trans hxfw'⟩, hrest⟩, hready, hd'⟩

theorem execFBufferFar_inOrder {s t : State} (hs : s.InOrder) (h : execFBufferFar s = .next t) :
    t.InOrder := by
  obtain ⟨⟨hshape, ⟨hpos, hread, -, hidx⟩, hrest⟩, hready⟩ := hs
  have hcursor (w : Nat) (hw : w < s.cfg.farBufLen) :
      ({ s with inst := { s.inst with farBufWritePos := w }, seq := 2 } : State).InOrder :=
    ⟨⟨hshape, ⟨hpos, hread, hw, hidx⟩, hrest⟩, hready⟩
  cases h
  exact (hcursor _ (Nat.mod_lt _ s.cfg.farBufLen_pos)).of_signals rfl rfl rfl
    (circWrite_length _ _ _ _) rfl rfl rfl

theorem execFFetchFar_inOrder {s t : State} (hs : s.InOrder) (h : execFFetchFar s = .next t) :
    t.InOrder := by
  obtain ⟨⟨hshape, ⟨hpos, -, hwrite, hidx⟩, hrings, hlevels, hcounters, -⟩, hready, hd⟩ := hs
  cases h
  exact ⟨⟨hshape, ⟨hpos, Nat.mod_lt _ s.cfg.farBufLen_pos, hwrite, hidx⟩, hrings, hlevels, hcounters, hd⟩,
    hready, hd⟩

theorem execFEnqueue_inOrder {s t : State} (hs : s.InOrder) (h : execFEnqueue s = .next t) :
    t.InOrder := by
  obtain ⟨⟨hshape, hcursors, ⟨-, -, hout, hnearH, houtH⟩, hrest⟩, hready⟩ := hs
  obtain ⟨far, near, nearH, hf, hn, hnh, rfl⟩ := execFEnqueue_next h
  have hnearH' : rbFill nearH ≤ RB_CAP :=
    doneIf_keeps (P := fun q => rbFill q ≤ RB_CAP) hnh hnearH fun _ hq => (rbWrite_fill hq).2
  exact ⟨⟨hshape, hcursors, ⟨(rbWrite_fill hf).2, (rbWrite_fill hn).2, hout, hnearH', houtH⟩, hrest⟩,
    hready⟩

theorem execBPop_inOrder {s t : State} (hs : s.InOrder) (h : execBPop s = .next t) : t.InOrder := by
  obtain ⟨⟨hshape, hcursors, ⟨hfar, hnear, hout, hnearH, houtH⟩, hrest⟩, hready, hd⟩ := hs
  obtain ⟨far, near, nearH, b, hf, hn, hnh, hb, rfl⟩ := execBPop_next h
  have hnearH' : rbFill nearH.2 ≤ RB_CAP :=
    doneIf_keeps (P := fun q => rbFill q.2 ≤ RB_CAP) hnh hnearH fun _ hq => rbRead_rest_le hq hnearH
  have hd' : delayInRange b.d := hb ▸ hd
  exact ⟨⟨hshape, hcursors, ⟨rbRead_rest_le hf hfar, rbRead_rest_le hn hnear, hout, hnearH', houtH⟩, hrest⟩,
    hready, hd'⟩

theorem execBPush_inOrder {s t : State} (hs : s.InOrder) (h : execBPush s = .next t) : t.InOrder := by
  obtain ⟨⟨hshape, hcursors, ⟨hfar, hnear, -, hnearH, houtH⟩, hrest⟩, hready⟩ := hs
  obtain ⟨out, outH, ho, hoh, rfl⟩ := execBPush_next h
  have houtH' : rbFill outH ≤ RB_CAP :=
    doneIf_keeps (P := fun q => rbFill q ≤ RB_CAP) hoh houtH fun _ hq => (rbWrite_fill hq).2
  exact ⟨⟨hshape, hcursors, ⟨hfar, hnear, (rbWrite_fill ho).2, hnearH, houtH'⟩, hrest⟩, hready⟩

theorem execFStuff_inOrder {s t : State} (hs : s.InOrder) (h : execFStuff s = .next t) :
    t.InOrder := by
  obtain ⟨⟨hshape, hcursors, ⟨hfar, hnear, hout, hnearH, houtH⟩, hrest⟩, hready⟩ := hs
  obtain ⟨out, outH, ho, hoh, rfl⟩ := execFStuff_next h
  have hout' : rbFill out ≤ RB_CAP :=
    doneIf_keeps (P := fun q => rbFill q ≤ RB_CAP) ho hout fun _ hq => (rbStuff_fill hq).2
  have houtH' : rbFill outH ≤ RB_CAP :=
    doneIf_keeps (P := fun q => rbFill q ≤ RB_CAP) hoh houtH fun _ hq => (rbStuff_fill hq).2
  exact ⟨⟨hshape, hcursors, ⟨hfar, hnear, hout', hnearH, houtH'⟩, hrest⟩, hready⟩

theorem execFPopOut_inOrder {s t : State} (hs : s.InOrder) (h : execFPopOut s = .next t) :
    t.InOrder := by
  obtain ⟨⟨hshape, hcursors, ⟨hfar, hnear, hout, hnearH, houtH⟩, hrest⟩, hready⟩ := hs
  obtain ⟨out, outH, m, ho, hoh, -, rfl⟩ := execFPopOut_next h
  have houtH' : rbFill outH.2 ≤ RB_CAP :=
    doneIf_keeps (P := fun q => rbFill q.2 ≤ RB_CAP) hoh houtH fun _ hq => rbRead_rest_le hq houtH
  exact ⟨⟨hshape, hcursors, ⟨hfar, hnear, rbRead_rest_le ho hout, hnearH, houtH'⟩, hrest⟩, hready⟩

theorem execBNoise_inOrder {s t : State} (hs : s.InOrder) (h : execBNoise s = .next t) :
    t.InOrder := by
  obtain ⟨⟨hshape, hcursors, hrings, hlevels, ⟨hnoise, hrest⟩, hdelay⟩, hready⟩ := hs
  obtain ⟨dMin, dInit, ctr, sel, hctr, rfl⟩ := execBNoise_next h
  have hnoise' : ctr ≤ noiseInitBlocks s.inst.mult := hctr.elim (· ▸ hnoise) id
  exact ⟨⟨hshape, hcursors, hrings, hlevels, ⟨hnoise', hrest⟩, hdelay⟩, hready⟩

theorem execBFilter_inOrder {s t : State} (hs : s.InOrder) (h : execBFilter s = .next t) :
    t.InOrder := by
  obtain ⟨⟨⟨hfar, hxf, hwf, hxfw⟩, ⟨-, hcursors⟩, hrest⟩, hready⟩ := hs
  cases h
  exact ⟨⟨⟨hfar, List.length_set.trans hxf, hwf, hxfw⟩,
    ⟨rotateBack_lt s.cfg.nrPart_pos _, hcursors⟩, hrest⟩, hready⟩

theorem execBAdapt_inOrder {s t : State} (hs : s.InOrder) (h : execBAdapt s = .next t) :
    t.InOrder := by
  have hbank : (if s.cfg.adaptEn then adaptBank s.cfg s.inst s.blk.ef else s.inst.wfBuf).length =
      s.inst.wfBuf.length := by
    split
    · exact adaptBank_length _ _ _
    · rfl
  cases h
  exact hs.of_signals rfl rfl rfl rfl rfl hbank rfl

theorem execNDelayIdx_inOrder {s t : State} (hs : s.InOrder) (h : execNDelayIdx s = .next t) :
    t.InOrder := by
  obtain ⟨⟨hshape, ⟨hpos, hread, hwrite, hidx⟩, hrest⟩, ⟨hrate, hmult, hmu, herr, hod, -⟩, hd⟩ := hs
  have hidx' : (if s.inst.delayEstCtr = 0 then bestPartition s.cfg.nrPart s.inst.wfBuf
      else s.inst.delayIdx) < s.cfg.nrPart := by
    split
    · exact bestPartition_lt s.cfg.nrPart_pos _
    · exact hidx
  have hperiod : 0 < delayEstInterval s.inst.mult :=
    Nat.mul_pos (by decide) (hmult ▸ multOf_pos _)
  cases h
  exact ⟨⟨hshape, ⟨hpos, hread, hwrite, hidx'⟩, hrest⟩,
    ⟨hrate, hmult, hmu, herr, hod, Nat.mod_lt _ hperiod⟩, hd⟩

theorem execNWindow_inOrder {s t : State} (hs : s.InOrder) (h : execNWindow s = .next t) :
    t.InOrder := by
  cases h
  exact hs.of_signals rfl rfl rfl rfl rfl rfl List.length_set

theorem execNDiverge_inOrder {s t : State} (hs : s.InOrder) (h : execNDiverge s = .next t) :
    t.InOrder := by
  have hbank : (if hardResetDue s.blk.sdSum s.blk.seSum then s.inst.wfBuf.map fun _ => Spectrum.zero
      else s.inst.wfBuf).length = s.inst.wfBuf.length := by
    split
    · exact List.length_map _
    · rfl
  cases h
  exact hs.of_signals rfl rfl rfl rfl rfl hbank rfl

theorem lowerXdMin_le_one {thXdMin xdAvg xdAvgMin : F32} (h : xdAvgMin.le Lit.one = true) :
    (lowerXdMin thXdMin xdAvg xdAvgMin).le Lit.one = true := by
  unfold lowerXdMin
  split
  · next hlow =>
    obtain ⟨-, hlt⟩ := Bool.and_eq_true_iff.1 hlow
    exact F32.le_trans (F32.le_of_lt hlt) h
  · exact h

theorem execNClassify_inOrder {s t : State} (hs : s.InOrder) (h : execNClassify s = .next t) :
    t.InOrder := by
  obtain ⟨⟨hshape, hcursors, hrings, ⟨hover, hfb, hxd⟩, hrest⟩, hready⟩ := hs
  cases h
  exact ⟨⟨hshape, hcursors, hrings, ⟨hover, hfb, lowerXdMin_le_one hxd⟩, hrest⟩, hready⟩

theorem execNGain_inOrder {s t : State} (hs : s.InOrder) (h : execNGain s = .next t) : t.InOrder := by
  obtain ⟨⟨hshape, hcursors, hrings, ⟨hover, hmins⟩, hrest⟩, hready⟩ := hs
  have hover' : s.inst.minOverDrive.le (if s.inst.hNlXdAvgMin.eq Lit.one then s.inst.minOverDrive
      else s.inst.overDrive) = true := by
    split
    · exact F32.le_self_of_le hover
    · exact hover
  cases h
  exact ⟨⟨hshape, hcursors, hrings, ⟨hover', hmins⟩, hrest⟩, hready⟩

theorem riseMin_le_one (v rise : F32) : (riseMin v rise).le Lit.one = true :=
  F32.min_le_right _ Lit.one_le_one

/-- The persistence counter of N_OVERDRIVE returns to 0 where it reaches its bound (spec/42_suppressor.md R210). -/
theorem persistence_lt {ctr : Nat} (h : ctr ≤ NEW_MIN_PERSIST) :
    (if decide (ctr = NEW_MIN_PERSIST) = true then 0 else ctr) < NEW_MIN_PERSIST := by
  simp only [decide_eq_true_eq]
  split
  · exact Nat.zero_lt_two
  · next hne => exact Nat.lt_of_le_of_ne h hne

theorem execNOverdrive_inOrder {s t : State} (hs : s.InOrder) (h : execNOverdrive s = .next t) :
    t.InOrder := by
  obtain ⟨⟨hshape, hcursors, hrings, ⟨hover, -, -⟩, ⟨hnoise, hmin, hmetrics⟩, hdelay⟩, hready⟩ := hs
  have hover' (persisted : Bool) (fbMin : F32) : s.inst.minOverDrive.le
      (if persisted then overDriveFor s.inst.targetSupp fbMin s.inst.minOverDrive
        else s.inst.overDrive) = true := by
    split
    · exact F32.le_max_right _ (F32.le_self_of_le hover)
    · exact hover
  have hctr (found pending : Bool) :
      (if found then 0 else s.inst.hNlMinCtr) + (if pending then 1 else 0) ≤ NEW_MIN_PERSIST := by
    split_ifs <;> omega
  cases h
  exact ⟨⟨hshape, hcursors, hrings, ⟨hover' _ _, riseMin_le_one _ _, riseMin_le_one _ _⟩,
    ⟨hnoise, persistence_lt (hctr _ _), hmetrics⟩, hdelay⟩, hready⟩

theorem execNSynth_inOrder {s t : State} (hs : s.InOrder) (h : execNSynth s = .next t) :
    t.InOrder := by
  obtain ⟨outBuf, outBl, rfl | rfl⟩ := execNSynth_next h
  · exact hs
  · exact hs

theorem execNHighband_inOrder {s t : State} (hs : s.InOrder) (h : execNHighband s = .next t) :
    t.InOrder := by
  obtain rfl | ⟨outBlH, rfl⟩ := execNHighband_next h
  · exact hs
  · exact hs

theorem execNShift_inOrder {s t : State} (hs : s.InOrder) (h : execNShift s = .next t) :
    t.InOrder := by
  cases h
  exact hs.of_signals rfl rfl rfl rfl rfl rfl (ageBank_length _)

theorem execMUpdate_inOrder {s t : State} (hs : s.InOrder) (h : execMUpdate s = .next t) :
    t.InOrder := by
  obtain rfl := Host.Outcome.next.inj h
  unfold State.InOrder
  dsimp only
  split
  · obtain ⟨⟨hshape, hcursors, hrings, hlevels, hcounters, hdelay⟩, hready, hd⟩ := hs
    have hcounters' := Inst.measure_counters s.cfg s.blk hcounters
    obtain ⟨erl, aNlp, erle, n, h, -⟩ := Inst.measure_eq s.cfg s.blk s.inst
    rw [h] at hcounters' ⊢
    exact ⟨⟨hshape, hcursors, hrings, hlevels, hcounters', hdelay⟩, hready, hd⟩
  · exact hs

/-- Every stage, and IDLE, keeps the filter in order. The stages without a lemma of their own write signals only. -/
theorem exec_stage_inOrder {i : Instr} (hi : i.isCommand = false) {s t : State} (hs : s.InOrder)
    (h : exec i s = .next t) : t.InOrder := by
  cases i with
  | create | init | processFrame | setMetrics | getMetrics | destroy => cases hi
  | fBufferFar => exact execFBufferFar_inOrder hs h
  | fFetchFar => exact execFFetchFar_inOrder hs h
  | fEnqueue => exact execFEnqueue_inOrder hs h
  | bPop => exact execBPop_inOrder hs h
  | bNoise => exact execBNoise_inOrder hs h
  | bFilter => exact execBFilter_inOrder hs h
  | bAdapt => exact execBAdapt_inOrder hs h
  | nDelayIdx => exact execNDelayIdx_inOrder hs h
  | nWindow => exact execNWindow_inOrder hs h
  | nDiverge => exact execNDiverge_inOrder hs h
  | nClassify => exact execNClassify_inOrder hs h
  | nGain => exact execNGain_inOrder hs h
  | nOverdrive => exact execNOverdrive_inOrder hs h
  | nSynth => exact execNSynth_inOrder hs h
  | nHighband => exact execNHighband_inOrder hs h
  | nShift => exact execNShift_inOrder hs h
  | mUpdate => exact execMUpdate_inOrder hs h
  | bPush => exact execBPush_inOrder hs h
  | fStuff => exact execFStuff_inOrder hs h
  | fPopOut => exact execFPopOut_inOrder hs h
  | fBlockTest | bLoad | bXform | bPow | bError | bErrXform | bScale | nPsd | nCoherence | nSuppress
  | nComfort | idle => cases h; exact hs.of_signals rfl rfl rfl rfl rfl rfl rfl

end Sys2Proof.Machine
end

section
/-! PROOFS. Every step keeps the invariant of the block (O56). -/

namespace Sys2Proof.Machine

/-! ### The fields after CREATE, INIT and SET_METRICS are in order -/

theorem Level.zero_counting : Level.zero.Counting := ⟨by decide, by decide⟩

theorem Level.init_counting (p : Params) : (Level.init p).Counting := Level.zero_counting

theorem delayInRange_zero : delayInRange 0 := ⟨by decide, by decide⟩

theorem Inst.zero_shape (p : Params) : (Inst.zero p).Shape p :=
  ⟨List.length_replicate, List.length_replicate, List.length_replicate, List.length_replicate⟩

theorem Inst.zero_cursors (p : Params) : (Inst.zero p).Cursors p :=
  ⟨p.nrPart_pos, p.farBufLen_pos, p.farBufLen_pos, p.nrPart_pos⟩

theorem Inst.zero_rings (p : Params) : (Inst.zero p).RingsBounded :=
  ⟨Nat.zero_le _, Nat.zero_le _, Nat.zero_le _, Nat.zero_le _, Nat.zero_le _⟩

theorem Inst.zero_inv (p : Params) : (Inst.zero p).Inv p :=
  ⟨Inst.zero_shape p, Inst.zero_cursors p, Inst.zero_rings p,
    ⟨F32.le_self_of_le Lit.zero_le_one, Lit.zero_le_one, Lit.zero_le_one⟩,
    ⟨Nat.zero_le _, Nat.zero_lt_two, Level.zero_counting, Level.zero_counting, Level.zero_counting,
      Level.zero_counting, Nat.zero_le _⟩, delayInRange_zero⟩

theorem Inst.init_inv (p : Params) (rate : Nat) : (Inst.init p rate).Inv p :=
  ⟨Inst.zero_shape p, Inst.zero_cursors p, Inst.zero_rings p,
    ⟨Lit.minOverdrive_le_self, Lit.one_le_one, Lit.one_le_one⟩,
    ⟨Nat.zero_le _, Nat.zero_lt_two, Level.init_counting p, Level.init_counting p, Level.init_counting p,
      Level.init_counting p, Nat.zero_le _⟩, delayInRange_zero⟩

theorem validRate_cases {rate : Nat} (h : validRate rate = true) :
    rate = 8000 ∨ rate = 16000 ∨ rate = 32000 := by
  simpa [validRate, or_assoc] using h

theorem Inst.init_readyInv (p : Params) {rate : Nat} (h : validRate rate = true) :
    (Inst.init p rate).ReadyInv := by
  obtain rfl | rfl | rfl := validRate_cases h
  · exact ⟨rfl, rfl, rfl, rfl, rfl, Nat.mul_pos (by decide) (multOf_pos 8000)⟩
  · exact ⟨rfl, rfl, rfl, rfl, rfl, Nat.mul_pos (by decide) (multOf_pos 16000)⟩
  · exact ⟨rfl, rfl, rfl, rfl, rfl, Nat.mul_pos (by decide) (multOf_pos 32000)⟩

theorem Inst.withMetrics_inv {p : Params} {x : Inst} (enable : Bool) (hx : x.Inv p) :
    (x.withMetrics p enable).Inv p := by
  cases enable with
  | false => exact hx
  | true =>
    obtain ⟨hshape, hcursors, hrings, hlevels, ⟨hnoise, hmin, -⟩, hdelay⟩ := hx
    exact ⟨hshape, hcursors, hrings, hlevels,
      ⟨hnoise, hmin, Level.init_counting p, Level.init_counting p, Level.init_counting p,
        Level.init_counting p, Nat.zero_le _⟩, hdelay⟩

theorem Inst.withMetrics_readyInv (p : Params) {x : Inst} (enable : Bool) (hx : x.ReadyInv) :
    (x.withMetrics p enable).ReadyInv := by
  cases enable with
  | false => exact hx
  | true => exact hx

/-! ### Settled: every step keeps the invariant -/

/-- A fault raised between commands or in a stage keeps the invariant: no command runs, and ERR is set along with
FAULT. -/
theorem raise_inv (c : FaultCode) {s : State} (hs : s.Inv) : (raise c s).Inv := by
  obtain ⟨hmem, hinst, hready, -, -⟩ := hs
  exact ⟨hmem, hinst, hready, fun h => absurd rfl h, nofun⟩

/-- A command ends in a state whose other parts of the invariant hold. -/
theorem complete_inv {s : State} (hmem : s.mem.wf) (hinst : s.life.exists = true → s.inst.Inv s.cfg)
    (hready : s.life = .ready → s.inst.ReadyInv) (herr : s.fault = false → s.err = 0) :
    (complete s).Inv := ⟨hmem, hinst, hready, fun h => absurd rfl h, herr⟩

theorem failLife_inv (c : FaultCode) {s : State} (hmem : s.mem.wf) : (failLife c s).Inv :=
  ⟨hmem, nofun, nofun, fun h => absurd rfl h, nofun⟩

theorem hardwareReset_inv (simd : Bool) (s : State) : (hardwareReset simd s).Inv :=
  ⟨List.Pairwise.nil, nofun, nofun, fun h => absurd rfl h, fun _ => rfl⟩

/-- A command runs in READY only, so its filter is in order. -/
theorem State.Inv.inOrder {s : State} (hs : s.Inv) (hseq : s.seq ≠ 0) : s.life = .ready ∧ s.InOrder := by
  obtain ⟨-, hinst, hready, hbusy, -⟩ := hs
  obtain ⟨hlife, hd⟩ := hbusy hseq
  exact ⟨hlife, hinst (hlife ▸ rfl), hready hlife, hd⟩

/-- A stage of a running command keeps the invariant: what it leaves of the filter is in order, and however it ends,
LIFE stays READY. -/
theorem stage_inv {i : Instr} (hi : i.isCommand = false) {s t : State} (hs : s.Inv) (hseq : s.seq ≠ 0)
    (h : exec i s = .next t) : t.Inv := by
  obtain ⟨hlife, horder⟩ := hs.inOrder hseq
  obtain ⟨hinst, hready, hd⟩ := exec_stage_inOrder hi horder h
  obtain ⟨hmem, -, -, -, herr⟩ := hs
  cases exec_stage_case hi h with
  | goesOn x b n draws hb =>
    exact ⟨hmem, fun _ => hinst, fun _ => hready, fun _ => ⟨hlife, hd⟩, herr⟩
  | faults x =>
    exact ⟨hmem, fun _ => hinst, fun _ => hready, fun h => absurd rfl h, nofun⟩
  | ends x m hm => exact complete_inv (hm hmem) (fun _ => hinst) (fun _ => hready) herr

theorem CommandCase.inv {s t : State} (hs : s.Inv) (h : CommandCase s t) : t.Inv := by
  have ⟨hmem, hinst, hready, _, herr⟩ := hs
  cases h with
  | rejected c => exact raise_inv c hs
  | failed c draws => exact failLife_inv c hmem
  | created => exact complete_inv hmem (fun _ => Inst.zero_inv s.cfg) nofun herr
  | inited rate hr =>
    exact complete_inv hmem (fun _ => Inst.init_inv s.cfg rate) (fun _ => Inst.init_readyInv s.cfg hr) herr
  | destroyed => exact complete_inv hmem nofun nofun herr
  | starts d hlife hd => exact ⟨hmem, hinst, hready, fun _ => ⟨hlife, hd⟩, herr⟩
  | metrics enable hlife =>
    exact complete_inv hmem (fun h => Inst.withMetrics_inv enable (hinst h))
      (fun h => Inst.withMetrics_readyInv s.cfg enable (hready h)) herr
  | exported m hm => exact complete_inv (hm hmem) hinst hready herr

/-- Settles O56: the invariant is inductive; the stages are the long case, and SEQ 0 names IDLE. -/
theorem stepKeepsInv : Obligations.StepKeepsInv := by
  intro s t hs h
  have ⟨hmem, hinst, hready, hbusy, herr⟩ := hs
  cases step_cases h with
  | stage q _ h =>
    have hs' : ({ s with hostQ := q } : State).Inv := hs
    by_cases hseq : s.seq = 0
    · have hidle : decodeStage s.seq = .idle := hseq ▸ rfl
      rw [hidle] at h
      cases h
      exact hs'
    · exact stage_inv (decodeStage_not_command s.seq) hs' hseq h
  | reset q simd _ h => exact h ▸ hardwareReset_inv simd _
  | command q w i hseq _ hi h =>
    obtain ⟨hcmd, hwf⟩ := decodeCommand_wf hi
    have hs' : ({ s with hostQ := q, cmd := w, done := false } : State).Inv := hs
    exact (exec_command_case hcmd hwf h).inv hs'
  | illegal q w c _ h =>
    have hs' : ({ s with hostQ := q, cmd := w, done := false } : State).Inv := hs
    exact h ▸ raise_inv c hs'
  | access q m r _ hm h => exact h ▸ ⟨hm hmem, hinst, hready, hbusy, herr⟩

end Sys2Proof.Machine
end

section
/-! PROOFS. Every step keeps the smoothed powers from being negative (O57). -/

namespace Sys2Proof.Machine

/-! ### Settled: the smoothed powers stay non-negative -/

/-- The two filters have the same smoothed powers. -/
def Inst.SamePowers (x y : Inst) : Prop :=
  y.xPow = x.xPow ∧ y.dPow = x.dPow ∧ y.sd = x.sd ∧ y.se = x.se ∧ y.sx = x.sx

theorem Inst.SamePowers.powersClear {x y : Inst} (h : x.SamePowers y) (hx : x.PowersClear) :
    y.PowersClear := by
  obtain ⟨hxPow, hdPow, hsd, hse, hsx⟩ := h
  unfold Inst.PowersClear
  rw [hxPow, hdPow, hsd, hse, hsx]
  exact hx

theorem Inst.measure_samePowers (p : Params) (b : Blk) (x : Inst) : x.SamePowers (x.measure p b) := by
  obtain ⟨erl, aNlp, erle, n, h, -⟩ := Inst.measure_eq p b x
  rw [h]
  exact ⟨rfl, rfl, rfl, rfl, rfl⟩

/-- Only B_POW and N_PSD write a smoothed power. -/
theorem exec_stage_samePowers {i : Instr} (hi : i.isCommand = false) (hpow : i ≠ .bPow) (hpsd : i ≠ .nPsd)
    {s t : State} (h : exec i s = .next t) : s.inst.SamePowers t.inst := by
  cases i with
  | create | init | processFrame | setMetrics | getMetrics | destroy => cases hi
  | bPow => exact absurd rfl hpow
  | nPsd => exact absurd rfl hpsd
  | fEnqueue =>
    obtain ⟨_, _, _, -, -, -, rfl⟩ := execFEnqueue_next h
    exact ⟨rfl, rfl, rfl, rfl, rfl⟩
  | bPop =>
    obtain ⟨_, _, _, _, -, -, -, -, rfl⟩ := execBPop_next h
    exact ⟨rfl, rfl, rfl, rfl, rfl⟩
  | bPush =>
    obtain ⟨_, _, -, -, rfl⟩ := execBPush_next h
    exact ⟨rfl, rfl, rfl, rfl, rfl⟩
  | fStuff =>
    obtain ⟨_, _, -, -, rfl⟩ := execFStuff_next h
    exact ⟨rfl, rfl, rfl, rfl, rfl⟩
  | fPopOut =>
    obtain ⟨_, _, _, -, -, -, rfl⟩ := execFPopOut_next h
    exact ⟨rfl, rfl, rfl, rfl, rfl⟩
  | bNoise =>
    obtain ⟨_, _, _, _, -, rfl⟩ := execBNoise_next h
    exact ⟨rfl, rfl, rfl, rfl, rfl⟩
  | nSynth =>
    obtain ⟨_, _, rfl | rfl⟩ := execNSynth_next h
    · exact ⟨rfl, rfl, rfl, rfl, rfl⟩
    · exact ⟨rfl, rfl, rfl, rfl, rfl⟩
  | nHighband =>
    obtain rfl | ⟨_, rfl⟩ := execNHighband_next h
    · exact ⟨rfl, rfl, rfl, rfl, rfl⟩
    · exact ⟨rfl, rfl, rfl, rfl, rfl⟩
  | mUpdate =>
    obtain rfl := Host.Outcome.next.inj h
    dsimp only
    split
    · exact Inst.measure_samePowers _ _ _
    · exact ⟨rfl, rfl, rfl, rfl, rfl⟩
  | _ => cases h; exact ⟨rfl, rfl, rfl, rfl, rfl⟩

theorem Inst.zero_powersClear (p : Params) : (Inst.zero p).PowersClear := by
  intro k
  simp [Inst.zero, Bins.zero]

theorem Inst.init_powersClear {p : Params} (hp : powerParams p) (rate : Nat) :
    (Inst.init p rate).PowersClear := by
  obtain ⟨-, -, -, -, hsd, hsx, -⟩ := hp
  intro k
  simp only [F32.signClear_eq_true] at hsd hsx
  simp [Inst.init, Inst.initMetrics, Inst.zero, Bins.zero, hsd, hsx]

theorem Inst.withMetrics_samePowers (p : Params) (enable : Bool) (x : Inst) :
    x.SamePowers (x.withMetrics p enable) := by
  cases enable with
  | false => exact ⟨rfl, rfl, rfl, rfl, rfl⟩
  | true => exact ⟨rfl, rfl, rfl, rfl, rfl⟩

/-- B_POW adds to a power a multiple of a squared magnitude (spec/41_adaptive_filter.md R154). -/
theorem execBPow_powersClear {s t : State} (hs : s.inst.PowersClear) (h : execBPow s = .next t) :
    t.inst.PowersClear := by
  have hscale : (Lit.c0_1.mul (F32.ofInt s.cfg.nrPart)).sign = false :=
    F32.mul_sign (F32.ofInt_sign (Int.natCast_nonneg _)).symm
  cases h
  intro k
  obtain ⟨hx, hd, hrest⟩ := hs k
  simp only [F32.signClear_eq_true] at hx hd
  refine ⟨?_, ?_, hrest⟩
  · simpa using smoothPow_sign hx hscale _
  · simpa using smoothPow_sign hd rfl _

/-- N_PSD blends the powers with squared magnitudes, or with the floor (spec/42_suppressor.md R194). -/
theorem execNPsd_powersClear {s t : State} (hp : powerParams s.cfg) (hs : s.inst.PowersClear)
    (h : execNPsd s = .next t) : t.inst.PowersClear := by
  obtain ⟨hold1, hold2, hnew1, hnew2, -, -, hfloor⟩ := hp
  simp only [F32.signClear_eq_true] at hold1 hold2 hnew1 hnew2 hfloor
  have hg0 : (s.cfg.gCohOld.get s.inst.mult).sign = false := PerMult.get_sign hold1 hold2 _
  have hg1 : (s.cfg.gCohNew.get s.inst.mult).sign = false := PerMult.get_sign hnew1 hnew2 _
  cases h
  intro k
  obtain ⟨hx, hd, hsd, hse, hsx⟩ := hs k
  simp only [F32.signClear_eq_true] at hsd hse hsx
  refine ⟨hx, hd, ?_, ?_, ?_⟩
  · simpa using smooth_sign hg0 hg1 hsd (C32.mag2_sign _)
  · simpa using smooth_sign hg0 hg1 hse (C32.mag2_sign _)
  · simpa using smooth_sign hg0 hg1 hsx (F32.max_sign (C32.mag2_sign _) hfloor)

theorem exec_stage_powersClear {i : Instr} (hi : i.isCommand = false) {s t : State}
    (hp : powerParams s.cfg) (hs : s.inst.PowersClear) (h : exec i s = .next t) : t.inst.PowersClear := by
  by_cases hpow : i = .bPow
  · subst hpow
    exact execBPow_powersClear hs h
  by_cases hpsd : i = .nPsd
  · subst hpsd
    exact execNPsd_powersClear hp hs h
  exact (exec_stage_samePowers hi hpow hpsd h).powersClear hs

theorem stage_powersInv {i : Instr} (hi : i.isCommand = false) {s t : State} (hs : s.PowersInv)
    (h : exec i s = .next t) : t.PowersInv := by
  have hkeep := fun hp hlife => exec_stage_powersClear hi hp (hs hp hlife) h
  cases exec_stage_case hi h with
  | goesOn | faults | ends => exact hkeep

theorem CommandCase.powersInv {s t : State} (hs : s.PowersInv) (h : CommandCase s t) : t.PowersInv := by
  cases h with
  | rejected | starts | exported => exact hs
  | failed | destroyed => exact fun _ => nofun
  | created => exact fun _ _ => Inst.zero_powersClear s.cfg
  | inited rate => exact fun hp _ => Inst.init_powersClear hp rate
  | metrics enable =>
    exact fun hp hlife => (Inst.withMetrics_samePowers s.cfg enable s.inst).powersClear (hs hp hlife)

/-- Settles O57: the powers are blends of squared magnitudes under coefficients whose signs are clear, and no other
operation but INIT and CREATE writes them. -/
theorem stepKeepsPowersNonneg : Obligations.StepKeepsPowersNonneg := by
  intro s t hs h
  cases step_cases h with
  | stage q _ h =>
    have hs' : ({ s with hostQ := q } : State).PowersInv := hs
    exact stage_powersInv (decodeStage_not_command s.seq) hs' h
  | reset q simd _ h => exact h ▸ fun _ => nofun
  | command q w i _ _ hi h =>
    obtain ⟨hcmd, hwf⟩ := decodeCommand_wf hi
    have hs' : ({ s with hostQ := q, cmd := w, done := false } : State).PowersInv := hs
    exact (exec_command_case hcmd hwf h).powersInv hs'
  | illegal q w c _ h => exact h ▸ hs
  | access q m r _ _ h => exact h ▸ hs

end Sys2Proof.Machine
end

section
/-! PROOFS. The host's accesses between commands: what a read returns and what a write stores, on the word space and
on a byte-addressed mapping of it (O7 to O10). -/

namespace Sys2Proof.Machine

/-! ### Words and their bytes -/

theorem append_toNat {m n : Nat} (x : BitVec m) (y : BitVec n) :
    (x ++ y).toNat = x.toNat * 2 ^ n + y.toNat := by
  rw [BitVec.toNat_append, ← Nat.shiftLeft_add_eq_or_of_lt y.isLt, Nat.shiftLeft_eq]

/-- A sample is its high byte over its low byte. -/
theorem sample_eq_append_bytes (v : Sample) : v.extractLsb' 8 8 ++ v.extractLsb' 0 8 = v := by
  rw [BitVec.extractLsb'_append_extractLsb'_eq_extractLsb' (h := by decide)]
  exact BitVec.extractLsb'_eq_self

/-- A word is its four bytes, byte 3 on top. -/
theorem word_eq_append_bytes (w : Word) :
    w.extractLsb' 24 8 ++ w.extractLsb' 16 8 ++ w.extractLsb' 8 8 ++ w.extractLsb' 0 8 = w := by
  rw [BitVec.extractLsb'_append_extractLsb'_eq_extractLsb' (h := by decide),
    BitVec.extractLsb'_append_extractLsb'_eq_extractLsb' (h := by decide),
    BitVec.extractLsb'_append_extractLsb'_eq_extractLsb' (h := by decide)]
  exact BitVec.extractLsb'_eq_self

/-! ### Where the windows lie -/

theorem Win.holds_eq_true {w : Win} {a : Nat} :
    w.holds a = true ↔ w.base ≤ a ∧ a < w.base + w.size := decide_eq_true_iff

/-- No two windows of the address map (spec/20_memory.md R71) share an address. -/
theorem Win.eq_of_holds {w w' : Win} {a : Nat} (h : w.holds a = true) (h' : w'.holds a = true) :
    w = w' := by
  rw [Win.holds_eq_true] at h h'
  cases w <;> cases w' <;> simp only [Win.base, Win.size, reduceCtorEq] at h h' ⊢ <;> omega

theorem winOf_eq_some {a : Nat} {w : Win} :
    winOf a = some w ↔ w.base ≤ a ∧ a < w.base + w.size := by
  rw [← Win.holds_eq_true]
  refine ⟨List.find?_some (p := fun w : Win => w.holds a), fun h => ?_⟩
  have hmem : w ∈ [Win.farIn, .nearIn, .nearHIn, .out, .outH, .metrics] := by cases w <;> simp
  obtain ⟨w', hw'⟩ : ∃ w', winOf a = some w' :=
    Option.isSome_iff_exists.1 (List.find?_isSome.2 ⟨w, hmem, h⟩)
  have hholds : w'.holds a = true := List.find?_some (p := fun w : Win => w.holds a) hw'
  exact hw'.trans (congrArg some (Win.eq_of_holds hholds h))

theorem winOf_eq_none {a : Nat} : winOf a = none ↔ ∀ w : Win, ¬(w.base ≤ a ∧ a < w.base + w.size) := by
  simp only [Option.eq_none_iff_forall_ne_some, ne_eq, winOf_eq_some]

/-- The addresses the host may write besides CMD are the three input windows (R71). -/
theorem input_address_iff {a : Nat} :
    ((0x100 ≤ a ∧ a < 0x150) ∨ (0x200 ≤ a ∧ a < 0x250) ∨ (0x300 ≤ a ∧ a < 0x350)) ↔
      ∃ w, winOf a = some w ∧ w.hostWritable = true := by
  constructor
  · rintro (h | h | h)
    · exact ⟨.farIn, winOf_eq_some.2 h, rfl⟩
    · exact ⟨.nearIn, winOf_eq_some.2 h, rfl⟩
    · exact ⟨.nearHIn, winOf_eq_some.2 h, rfl⟩
  · rintro ⟨w, h, hw⟩
    have ha := winOf_eq_some.1 h
    cases w with
    | farIn => exact .inl ha
    | nearIn => exact .inr (.inl ha)
    | nearHIn => exact .inr (.inr ha)
    | out | outH | metrics => cases hw

theorem Win.ne_metrics_of_hostWritable {w : Win} (hw : w.hostWritable = true) : w ≠ .metrics := by
  rintro rfl
  cases hw

/-- The windows lie above the registers (R71) and inside the host space (R70). -/
theorem Win.address_bounds {a : Nat} {w : Win} (h : winOf a = some w) : 0x100 ≤ a ∧ a < 0x800 := by
  have ha := winOf_eq_some.1 h
  cases w <;> simp only [Win.base, Win.size] at ha <;> omega

/-! ### What the host's word at an address is -/

@[simp] theorem State.hostWord_with_hostQ (s : State) (q : List HostMove) (a : Nat) :
    ({ s with hostQ := q } : State).hostWord a = s.hostWord a := rfl

/-- The word at an address that is no register's: an element of a window, or 0. -/
def State.windowWord (s : State) (a : Nat) : Word :=
  match winOf a with
  | none => 0
  | some .metrics => s.wordAt a
  | some w => (s.winRead w (a - w.base)).signExtend 32

theorem State.hostWord_eq_windowWord (s : State) {a : Nat} (ha : a = 0 ∨ 7 ≤ a) :
    s.hostWord a = s.windowWord a := by
  have h1 : a ≠ 1 := by omega
  have h2 : a ≠ 2 := by omega
  have h3 : a ≠ 3 := by omega
  have h4 : a ≠ 4 := by omega
  have h5 : a ≠ 5 := by omega
  have h6 : a ≠ 6 := by omega
  unfold State.hostWord
  rw [if_neg h1, if_neg h2, if_neg h3, if_neg h4, if_neg h5, if_neg h6]
  rfl

theorem State.hostWord_of_window (s : State) {a : Nat} {w : Win} (h : winOf a = some w) :
    s.hostWord a = s.windowWord a :=
  s.hostWord_eq_windowWord (.inr (Nat.le_trans (by decide) (Win.address_bounds h).1))

/-- An element of a sample window reads sign-extended (R72). -/
theorem State.hostWord_sample (s : State) {a : Nat} {w : Win} (h : winOf a = some w)
    (hw : w ≠ .metrics) : s.hostWord a = (s.byteAt (4 * a + 1) ++ s.byteAt (4 * a)).signExtend 32 := by
  have ha : w.base + (a - w.base) = a := Nat.add_sub_cancel' (winOf_eq_some.1 h).1
  have helem : s.winRead w (a - w.base) = s.byteAt (4 * a + 1) ++ s.byteAt (4 * a) := by
    rw [State.winRead, ha]
  rw [s.hostWord_of_window h, ← helem]
  unfold State.windowWord
  rw [h]
  cases w with
  | metrics => exact absurd rfl hw
  | farIn | nearIn | nearHIn | out | outH => rfl

/-- An element of METRICS reads as its pattern (R72). -/
theorem State.hostWord_metrics (s : State) {a : Nat} (h : winOf a = some .metrics) :
    s.hostWord a = s.wordAt a := by
  rw [s.hostWord_of_window h]
  unfold State.windowWord
  rw [h]

/-- A reserved address, and CMD, read as 0 (R71; spec/10_state.md R23). -/
theorem State.hostWord_reserved (s : State) {a : Nat} (ha : a = 0 ∨ 7 ≤ a) (h : winOf a = none) :
    s.hostWord a = 0 := by
  rw [s.hostWord_eq_windowWord ha]
  unfold State.windowWord
  rw [h]

/-! ### The registers -/

theorem Life.exists_eq_true {l : Life} : l.exists = true ↔ l = .created ∨ l = .ready := by
  cases l <;> simp [Life.exists]

/-- A flag in a register, at the place whose value is `k`. -/
theorem ite_eq_toNat_mul (b : Bool) (k : Nat) : (if b = true then k else 0) = b.toNat * k := by
  cases b <;> simp

/-- STATUS between commands, as a number (spec/10_state.md R24). -/
theorem State.statusWord_toNat {s : State} (hseq : s.seq = 0) :
    s.statusWord.toNat = s.life.bits.toNat + (if s.fault then 8 else 0) +
      (if (s.life = .created ∨ s.life = .ready) ∧ s.inst.metricsMode then 16 else 0) +
      (if (s.life = .created ∨ s.life = .ready) ∧ s.inst.kernelSel then 32 else 0) +
      (if s.done then 64 else 0) := by
  have hbusy : (s.seq != 0) = false := by simp [hseq]
  simp only [← Life.exists_eq_true, ← Bool.and_eq_true, ite_eq_toNat_mul]
  simp only [State.statusWord, append_toNat, BitVec.toNat_ofBool, BitVec.toNat_ofNat, hbusy, Bool.toNat_false]
  omega

/-- CONFIG as a number (spec/10_state.md R26). -/
theorem configWord_toNat (p : Params) :
    (configWord p).toNat =
      (if p.unconstr then 1 else 0) + (if p.adaptEn then 2 else 0) + (if p.nlpEn then 4 else 0) +
      (if p.cnEn then 8 else 0) + (if p.hbCnEn then 16 else 0) + (if p.simd then 32 else 0) := by
  simp only [ite_eq_toNat_mul, configWord, append_toNat, BitVec.toNat_ofBool, BitVec.toNat_ofNat]
  omega

/-! ### What a write to an input window stores -/

/-- A byte depends on the storage at its own address only. -/
theorem State.byteAt_eq_of_read {s t : State} {b : Nat} (hepoch : t.memEpoch = s.memEpoch)
    (hread : t.mem.read b = s.mem.read b) : t.byteAt b = s.byteAt b := by
  rw [State.byteAt, State.byteAt, hepoch, hread]

/-- A sample stored in an element reads back. -/
theorem Memory.byteAt_writeBytes_sample {s : State} {m : Memory} {a : Nat} {v : Sample}
    (h : s.mem = m.writeBytes (4 * a) (sampleBytes v)) :
    s.byteAt (4 * a + 1) ++ s.byteAt (4 * a) = v := by
  have hlow : s.byteAt (4 * a) = v.extractLsb' 0 8 := by
    simp [State.byteAt, h, Memory.read_writeBytes, sampleBytes]
  have hhigh : s.byteAt (4 * a + 1) = v.extractLsb' 8 8 := by
    simp [State.byteAt, h, Memory.read_writeBytes, sampleBytes]
  rw [hlow, hhigh, sample_eq_append_bytes]

/-- Storing a sample leaves every byte but its two alone. -/
theorem Memory.read_writeBytes_sample_other (m : Memory) {a b : Nat} (v : Sample)
    (h0 : b ≠ 4 * a) (h1 : b ≠ 4 * a + 1) :
    (m.writeBytes (4 * a) (sampleBytes v)).read b = m.read b := by
  have hout : ¬(4 * a ≤ b ∧ b < 4 * a + (sampleBytes v).length) := by
    simp only [sampleBytes, List.length_cons, List.length_nil]
    omega
  rw [Memory.read_writeBytes, if_neg hout]

theorem State.hostStore_input (s : State) {a : Nat} {win : Win} (w : Word) (h : winOf a = some win)
    (hw : win.hostWritable = true) :
    s.hostStore a w = s.setMem (s.mem.writeBytes (4 * a) (sampleBytes (w.extractLsb' 0 16))) := by
  unfold State.hostStore
  rw [h]
  exact if_pos hw

theorem State.hostStore_ignored (s : State) {a : Nat} (w : Word)
    (h : ¬∃ win, winOf a = some win ∧ win.hostWritable = true) : s.hostStore a w = s := by
  unfold State.hostStore
  split
  · rfl
  · next win hwin => exact if_neg fun hw => h ⟨win, hwin, hw⟩

/-! ### One step that serves a host move -/

theorem step_of_done {s t : State} (h : fetch s = .done t) : step s = .next t := by
  unfold step
  rw [h]

theorem step_of_fault {s : State} {r : Fault} (h : fetch s = .fault r) : step s = .fault r := by
  unfold step
  rw [h]

theorem step_of_refuse {s : State} {r : Refusal} (h : fetch s = .refuse r) : step s = .refused r := by
  unfold step
  rw [h]

theorem step_eq_of_fetch_eq {s t : State} (h : fetch s = fetch t) : step s = step t := by
  unfold step
  rw [h]

section
variable {s : State} {q : List HostMove} {a : Nat} {w : Word}

theorem fetch_read (hseq : s.seq = 0) (hq : s.hostQ = .read a :: q) :
    fetch s = serveRead a .word { s with hostQ := q } := fetch_idle hq hseq nofun

theorem fetch_write (hseq : s.seq = 0) (hq : s.hostQ = .write a w :: q) :
    fetch s = serveWrite a w { s with hostQ := q } := fetch_idle hq hseq nofun

/-- Between commands a read in the host space returns the word and changes nothing else (R80). -/
theorem step_read (hseq : s.seq = 0) (hq : s.hostQ = .read a :: q) (ha : a < 0x800) :
    step s = .next { s with hostQ := q, reply := .word (s.hostWord a) } :=
  step_of_done ((fetch_read hseq hq).trans (if_pos ha))

/-- Between commands a write in the host space, but to CMD, stores the word (R80). -/
theorem step_write (hseq : s.seq = 0) (hq : s.hostQ = .write a w :: q) (h0 : a ≠ 0) (ha : a < 0x800) :
    step s = .next (({ s with hostQ := q } : State).hostStore a w) :=
  step_of_done ((fetch_write hseq hq).trans ((if_neg h0).trans (if_pos ha)))

/-- Beyond the host space a write stops the machine (log 16). -/
theorem step_write_beyond (hseq : s.seq = 0) (hq : s.hostQ = .write a w :: q) (ha : 0x800 ≤ a) :
    step s = .fault (.outsideHostSpace a) := by
  have h0 : a ≠ 0 := by omega
  exact step_of_fault ((fetch_write hseq hq).trans ((if_neg h0).trans (if_neg (Nat.not_lt.2 ha))))

end

/-! ### The byte-addressed mapping -/

theorem busAligned_eq_true {a n : Nat} : busAligned a n = true ↔ n = 4 ∧ a % 4 = 0 := decide_eq_true_iff

/-- An aligned access at byte address `4 * a` is one to word `a` (spec/20_memory.md R77). -/
theorem busAligned_four_mul (a : Nat) : busAligned (4 * a) 4 = true ∧ 4 * a / 4 = a := by
  rw [busAligned_eq_true]
  omega

section
variable {s : State} {q : List HostMove} {a n : Nat} {bs : List Byte}

/-- An aligned bus read between commands returns the bytes of the word (R77). -/
theorem step_busRead (hseq : s.seq = 0) (hq : s.hostQ = .busRead (4 * a) 4 :: q) (ha : a < 0x800) :
    step s = .next { s with hostQ := q, reply := .bytes (busBytes s.cfg.byteOrder (s.hostWord a)) } := by
  obtain ⟨halign, hdiv⟩ := busAligned_four_mul a
  have hfetch := fetch_idle hq hseq nofun
  rw [serve, if_pos halign, hdiv, serveRead, if_pos ha] at hfetch
  exact step_of_done hfetch

/-- An aligned bus write between commands does what the write of the word of its bytes does (R77). -/
theorem step_busWrite (hseq : s.seq = 0) (hq : s.hostQ = .busWrite (4 * a) bs :: q)
    (hlen : bs.length = 4) :
    step s = step { s with hostQ := .write a (busWord s.cfg.byteOrder bs) :: q } := by
  obtain ⟨halign, hdiv⟩ := busAligned_four_mul a
  have hfetch := fetch_idle hq hseq nofun
  rw [serve, hlen, if_pos halign, hdiv] at hfetch
  have hwrite : fetch { s with hostQ := .write a (busWord s.cfg.byteOrder bs) :: q } =
      serveWrite a (busWord s.cfg.byteOrder bs) { s with hostQ := q } := fetch_write hseq rfl
  exact step_eq_of_fetch_eq (hfetch.trans hwrite.symm)

theorem step_busRead_unaligned (hseq : s.seq = 0) (hq : s.hostQ = .busRead a n :: q)
    (h : ¬(n = 4 ∧ a % 4 = 0)) : step s = .refused .unalignedBusAccess :=
  step_of_refuse ((fetch_idle hq hseq nofun).trans (if_neg (busAligned_eq_true.not.2 h)))

theorem step_busWrite_unaligned (hseq : s.seq = 0) (hq : s.hostQ = .busWrite a bs :: q)
    (h : ¬(bs.length = 4 ∧ a % 4 = 0)) : step s = .refused .unalignedBusAccess :=
  step_of_refuse ((fetch_idle hq hseq nofun).trans (if_neg (busAligned_eq_true.not.2 h)))

end

/-! ### Settled: writes to the host space -/

/-- Settles O7: the two bytes of the element are the two the read puts together. -/
theorem inputWindowReadsBack : Obligations.InputWindowReadsBack := by
  intro s a w q hseq hq ha
  obtain ⟨win, hwin, hw⟩ := input_address_iff.1 ha
  obtain ⟨hlow, hhigh⟩ := Win.address_bounds hwin
  have h0 : a ≠ 0 := by omega
  have hwrite := step_write hseq hq h0 hhigh
  rw [State.hostStore_input _ w hwin hw] at hwrite
  refine ⟨_, _, hwrite, step_read hseq rfl hhigh, rfl, fun b hb0 hb1 => ?_, ?_⟩
  · exact State.byteAt_eq_of_read rfl (Memory.read_writeBytes_sample_other s.mem _ hb0 hb1)
  · rw [State.hostWord_sample _ hwin (Win.ne_metrics_of_hostWritable hw),
      Memory.byteAt_writeBytes_sample rfl]

/-- Settles O8: outside the input windows the store does nothing. -/
theorem otherHostWritesIgnored : Obligations.OtherHostWritesIgnored := by
  intro s a w q hseq hq h0 ha
  refine ⟨fun hlt => ?_, step_write_beyond hseq hq⟩
  rw [step_write hseq hq h0 hlt, State.hostStore_ignored _ w (input_address_iff.not.1 ha)]

/-! ### Settled: reads of the host space -/

/-- A read of a sample window's address. -/
theorem State.hostWord_sample_address (s : State) {a : Nat}
    (ha : (0x100 ≤ a ∧ a < 0x150) ∨ (0x200 ≤ a ∧ a < 0x250) ∨ (0x300 ≤ a ∧ a < 0x350) ∨
      (0x400 ≤ a ∧ a < 0x450) ∨ (0x500 ≤ a ∧ a < 0x550)) :
    s.hostWord a = (s.byteAt (4 * a + 1) ++ s.byteAt (4 * a)).signExtend 32 := by
  obtain h | h | h | h | h := ha
  · exact s.hostWord_sample (w := .farIn) (winOf_eq_some.2 h) nofun
  · exact s.hostWord_sample (w := .nearIn) (winOf_eq_some.2 h) nofun
  · exact s.hostWord_sample (w := .nearHIn) (winOf_eq_some.2 h) nofun
  · exact s.hostWord_sample (w := .out) (winOf_eq_some.2 h) nofun
  · exact s.hostWord_sample (w := .outH) (winOf_eq_some.2 h) nofun

/-- The gaps between the windows hold none. -/
theorem winOf_reserved {a : Nat}
    (ha : a < 0x100 ∨ (0x150 ≤ a ∧ a < 0x200) ∨ (0x250 ≤ a ∧ a < 0x300) ∨
      (0x350 ≤ a ∧ a < 0x400) ∨ (0x450 ≤ a ∧ a < 0x500) ∨ (0x550 ≤ a ∧ a < 0x600) ∨ 0x614 ≤ a) :
    winOf a = none := by
  rw [winOf_eq_none]
  intro w
  cases w <;> simp only [Win.base, Win.size] <;> omega

/-- Settles O9: one clause per register and per kind of window. -/
theorem hostReads : Obligations.HostReads := by
  intro s a q hseq hq ha
  refine ⟨_, s.hostWord a, step_read hseq hq ha, rfl, ?cmd, ?status, ?err, ?config, ?rate, ?nrPart,
    ?farBufLen, s.hostWord_sample_address, fun h => s.hostWord_metrics (winOf_eq_some.2 h), ?reserved⟩
  case cmd =>
    rintro rfl
    exact s.hostWord_reserved (.inl rfl) (winOf_reserved (.inl (by decide)))
  case status =>
    rintro rfl
    refine (State.statusWord_toNat hseq).trans ?_
    cases s.life <;> rfl
  case err => rintro rfl; rfl
  case config => rintro rfl; exact configWord_toNat s.cfg
  case rate => rintro rfl; rfl
  case nrPart => rintro rfl; exact BitVec.toNat_ofNat _ _
  case farBufLen => rintro rfl; exact BitVec.toNat_ofNat _ _
  case reserved =>
    intro h
    exact s.hostWord_reserved (.inr (by omega)) (winOf_reserved (by omega))

/-! ### Settled: the byte-addressed mapping -/

/-- Settles O10: every word is its four bytes, so a bus access is the word access in the order of BYTE_ORDER. -/
theorem byteMapping : Obligations.ByteMapping := by
  intro s q hseq
  refine ⟨fun a n hq h => step_busRead_unaligned hseq hq h,
    fun a bs hq h => step_busWrite_unaligned hseq hq h, fun a hq ha => ?_, fun a b0 b1 b2 b3 hq => ?_⟩
  · refine ⟨_, _, _, _, _, step_read hseq rfl ha,
      congrArg HostReply.word (word_eq_append_bytes (s.hostWord a)).symm, fun ho => ?_, fun ho => ?_⟩
    · rw [step_busRead hseq hq ha, ho]
      rfl
    · rw [step_busRead hseq hq ha, ho]
      rfl
  · rw [step_busWrite hseq hq rfl]
    exact ⟨fun ho => by rw [ho]; rfl, fun ho => by rw [ho]; rfl⟩

end Sys2Proof.Machine
end

section
/-! PROOFS. Which operation changes which window (O60). -/

namespace Sys2Proof.Machine

/-! ### The bytes outside a written window -/

theorem Inst.highBand_eq_true {x : Inst} : x.highBand = true ↔ x.wide := decide_eq_true_iff

theorem sampleBytes_length (v : Sample) : (sampleBytes v).length = 2 := rfl

theorem wordBytes_length (w : Word) : (wordBytes w).length = 4 := rfl

theorem metricsWords_length (draw : Nat) (x : Inst) : (metricsWords draw x).length = 20 := by
  simp [metricsWords, Inst.reported, Stat.fields]

/-- Writing a frame leaves every byte outside the words of its elements alone. -/
theorem Memory.read_writeFrame_outside (m : Memory) (w : Win) {vs : List Sample} {b : Nat}
    (hb : ¬(4 * w.base ≤ b ∧ b < 4 * (w.base + vs.length))) :
    (m.writeFrame w vs).read b = m.read b := by
  refine Memory.read_writeElems_outside m _ _ b (fun e he => ?_) ?_
  · obtain ⟨v, -, rfl⟩ := List.mem_map.1 he
    simp [sampleBytes_length]
  · rw [List.length_map]
    omega

/-- Writing the METRICS window leaves every byte outside it alone. -/
theorem Memory.read_writeMetrics_outside (m : Memory) (draw : Nat) (x : Inst) {b : Nat}
    (hb : ¬(4 * 0x600 ≤ b ∧ b < 4 * 0x614)) :
    (m.writeElems Win.metrics.base ((metricsWords draw x).map wordBytes)).read b = m.read b := by
  refine Memory.read_writeElems_outside m _ _ b (fun e he => ?_) ?_
  · obtain ⟨w, -, rfl⟩ := List.mem_map.1 he
    exact (wordBytes_length w).le
  · rw [List.length_map, metricsWords_length, Win.base]
    omega

/-! ### The operations that change no byte -/

theorem createWith_sameBytes (resOk : Bool) (s : State) : s.SameBytes (createWith resOk s) := by
  unfold createWith
  split
  · exact .of_eq rfl rfl
  · exact .of_eq rfl rfl

theorem initWith_sameBytes (resOk : Bool) (rate : Nat) (s : State) :
    s.SameBytes (initWith resOk rate s) := by
  unfold initWith
  split_ifs
  all_goals exact .of_eq rfl rfl

/-- No command but GET_METRICS changes a byte. -/
theorem exec_command_sameBytes {i : Instr} (hi : i.isCommand = true) (hget : i ≠ .getMetrics)
    {s t : State} (h : exec i s = .next t) : s.SameBytes t := by
  cases i with
  | getMetrics => exact absurd rfl hget
  | create =>
    obtain rfl := Host.Outcome.next.inj h
    split
    · exact createWith_sameBytes _ s.drawn
    · exact .of_eq rfl rfl
  | init rate =>
    obtain rfl := Host.Outcome.next.inj h
    split
    · exact initWith_sameBytes _ rate s
    · exact .of_eq rfl rfl
  | processFrame hb d =>
    obtain rfl := Host.Outcome.next.inj h
    split_ifs
    all_goals exact .of_eq rfl rfl
  | setMetrics enable =>
    obtain rfl := Host.Outcome.next.inj h
    split
    · exact .of_eq rfl rfl
    · exact .of_eq rfl rfl
  | destroy =>
    obtain rfl := Host.Outcome.next.inj h
    split
    · exact .of_eq rfl rfl
    · exact .of_eq rfl rfl
  | _ => cases hi

/-- No stage but F_POP_OUT changes a byte. -/
theorem exec_stage_sameBytes {i : Instr} (hi : i.isCommand = false) (hpop : i ≠ .fPopOut)
    {s t : State} (h : exec i s = .next t) : s.SameBytes t := by
  cases i with
  | create | init | processFrame | setMetrics | getMetrics | destroy => cases hi
  | fPopOut => exact absurd rfl hpop
  | fEnqueue =>
    obtain ⟨_, _, _, -, -, -, rfl⟩ := execFEnqueue_next h
    exact .of_eq rfl rfl
  | bPop =>
    obtain ⟨_, _, _, _, -, -, -, -, rfl⟩ := execBPop_next h
    exact .of_eq rfl rfl
  | bPush =>
    obtain ⟨_, _, -, -, rfl⟩ := execBPush_next h
    exact .of_eq rfl rfl
  | fStuff =>
    obtain ⟨_, _, -, -, rfl⟩ := execFStuff_next h
    exact .of_eq rfl rfl
  | nSynth =>
    obtain ⟨_, _, rfl | rfl⟩ := execNSynth_next h
    · exact .of_eq rfl rfl
    · exact .of_eq rfl rfl
  | nHighband =>
    obtain rfl | ⟨_, rfl⟩ := execNHighband_next h
    · exact .of_eq rfl rfl
    · exact .of_eq rfl rfl
  | _ => cases h; exact .of_eq rfl rfl

/-- No operation but F_POP_OUT and GET_METRICS changes a byte. -/
theorem exec_sameBytes {i : Instr} (hpop : i ≠ .fPopOut) (hget : i ≠ .getMetrics) {s t : State}
    (h : exec i s = .next t) : s.SameBytes t := by
  cases hi : i.isCommand with
  | true => exact exec_command_sameBytes hi hget h
  | false => exact exec_stage_sameBytes hi hpop h

/-! ### Settled: which operation changes which window -/

/-- F_POP_OUT writes one frame to OUT and, at 32000 Hz, one to OUTH. -/
theorem execFPopOut_byteAt_outside {s t : State} (h : execFPopOut s = .next t) {b : Nat}
    (hout : ¬(4 * 0x400 ≤ b ∧ b < 4 * 0x450))
    (houtH : ¬(s.inst.wide ∧ 4 * 0x500 ≤ b ∧ b < 4 * 0x550)) : t.byteAt b = s.byteAt b := by
  obtain ⟨out, outH, m, hread, hreadH, hm, rfl⟩ := execFPopOut_next h
  have hframe : (s.mem.writeFrame .out out.1).read b = s.mem.read b :=
    Memory.read_writeFrame_outside _ .out ((rbRead_fill hread).1.symm ▸ hout)
  refine State.byteAt_eq_of_read rfl ?_
  rw [complete_mem, hm]
  cases hwide : s.inst.highBand with
  | false => exact hframe
  | true =>
    rw [hwide] at hreadH
    have houtH' : ¬(4 * 0x500 ≤ b ∧ b < 4 * 0x550) := fun hb =>
      houtH ⟨Inst.highBand_eq_true.1 hwide, hb⟩
    exact (Memory.read_writeFrame_outside _ .outH ((rbRead_fill hreadH).1.symm ▸ houtH')).trans hframe

theorem execGetMetrics_next {s t : State} (h : execGetMetrics s = .next t) :
    t = raise .state s ∨ ∃ m,
      m = s.mem.writeElems Win.metrics.base ((metricsWords s.draws s.inst).map wordBytes) ∧
      t = complete (s.setMem m).drawn := by
  obtain rfl := Host.Outcome.next.inj h
  split
  · exact .inr ⟨_, rfl, rfl⟩
  · exact .inl rfl

/-- GET_METRICS writes METRICS, or raises its fault. -/
theorem execGetMetrics_byteAt_outside {s t : State} (h : execGetMetrics s = .next t) {b : Nat}
    (hb : ¬(4 * 0x600 ≤ b ∧ b < 4 * 0x614)) : t.byteAt b = s.byteAt b := by
  obtain rfl | ⟨m, hm, rfl⟩ := execGetMetrics_next h
  · rfl
  · refine State.byteAt_eq_of_read rfl ?_
    rw [complete_mem, State.drawn_mem, State.setMem_mem, hm]
    exact Memory.read_writeMetrics_outside _ _ _ hb

/-- Settles O60, by the operation: the two that write a window, and all the others. -/
theorem windowsWrittenOnlyBy : Obligations.WindowsWrittenOnlyBy := by
  intro i s t h
  refine ⟨fun hpop hget => exec_sameBytes hpop hget h, ?_, ?_⟩
  · rintro rfl b hout houtH
    exact execFPopOut_byteAt_outside h hout houtH
  · rintro rfl b hb
    exact execGetMetrics_byteAt_outside h hb

end Sys2Proof.Machine
end

section
/-! PROOFS. The encoding: the fields of a command word, decoding after encoding and back, and the words that are
illegal (O1, O2, O3, O5). -/

namespace Sys2Proof

/-! ### The fields of a word -/

/-- Bits of any width are their upper over their lower part. -/
theorem exists_eq_append {m n : Nat} (x : BitVec (m + n)) :
    ∃ (hi : BitVec m) (lo : BitVec n), x = hi ++ lo := by
  refine ⟨x.extractLsb' n m, x.extractLsb' 0 n, ?_⟩
  rw [BitVec.extractLsb'_append_extractLsb'_eq_extractLsb' (h := (Nat.zero_add n).symm)]
  exact BitVec.extractLsb'_eq_self.symm

/-- Every word is a command word of an opcode and an operand (spec/30_encoding.md R100, R101). -/
theorem exists_eq_commandWord (w : Word) : ∃ op imm, w = commandWord op imm :=
  exists_eq_append (m := 8) (n := 24) w

theorem exists_eq_ofBool (x : BitVec 1) : ∃ b, x = BitVec.ofBool b := by
  revert x
  decide

@[simp] theorem opField_commandWord (op : BitVec 8) (imm : BitVec 24) :
    opField (commandWord op imm) = op := BitVec.extractLsb'_append_eq_left

@[simp] theorem imm24Field_commandWord (op : BitVec 8) (imm : BitVec 24) :
    imm24Field (commandWord op imm) = imm := BitVec.extractLsb'_append_eq_right

@[simp] theorem imm23Field_commandWord (op : BitVec 8) (hb : Bool) (d : BitVec 23) :
    imm23Field (commandWord op (BitVec.ofBool hb ++ d)) = d :=
  (BitVec.extractLsb'_append_eq_of_add_le (by decide)).trans BitVec.extractLsb'_append_eq_right

@[simp] theorem hbField_commandWord (op : BitVec 8) (hb : Bool) (d : BitVec 23) :
    hbField (commandWord op (BitVec.ofBool hb ++ d)) = hb := by
  show (op ++ (BitVec.ofBool hb ++ d)).getLsbD 23 = hb
  rw [BitVec.getLsbD_append, BitVec.getLsbD_append]
  cases hb <;> rfl

/-- The reserved bits of SET_METRICS, `w[23:1]` (R105). -/
@[simp] theorem metricsReserved_commandWord (op : BitVec 8) (r : BitVec 23) (e : Bool) :
    (commandWord op (r ++ BitVec.ofBool e)).extractLsb' 1 23 = r :=
  (BitVec.extractLsb'_append_eq_of_add_le (by decide)).trans BitVec.extractLsb'_append_eq_left

/-- The operand of SET_METRICS, `w[0]` (R103). -/
theorem metricsEnable_commandWord (op : BitVec 8) (r : BitVec 23) (e : Bool) :
    (commandWord op (r ++ BitVec.ofBool e)).getLsbD 0 = e := by
  show (op ++ (r ++ BitVec.ofBool e)).getLsbD 0 = e
  rw [BitVec.getLsbD_append, BitVec.getLsbD_append]
  cases e <;> rfl

theorem commandWord_inj {op op' : BitVec 8} {imm imm' : BitVec 24}
    (h : commandWord op imm = commandWord op' imm') : op = op' ∧ imm = imm' :=
  ⟨by simpa using congrArg opField h, by simpa using congrArg imm24Field h⟩

theorem commandWord_toNat_div (op : BitVec 8) (imm : BitVec 24) :
    (commandWord op imm).toNat / 2 ^ 24 = op.toNat := by
  have himm := imm.isLt
  rw [commandWord, Machine.append_toNat]
  omega

theorem commandWord_toNat_mod (op : BitVec 8) (imm : BitVec 24) :
    (commandWord op imm).toNat % 2 ^ 24 = imm.toNat := by
  have himm := imm.isLt
  rw [commandWord, Machine.append_toNat]
  omega

/-! ### What each opcode decodes to (R102 to R106) -/

theorem decodeCommand_create (imm : BitVec 24) :
    decodeCommand (commandWord 1 imm) = if imm = 0 then .ok .create else .error .reservedBits := by
  simp [decodeCommand]

theorem decodeCommand_init (imm : BitVec 24) :
    decodeCommand (commandWord 2 imm) = .ok (.init imm.toNat) := by
  simp [decodeCommand]

theorem decodeCommand_processFrame (hb : Bool) (d : BitVec 23) :
    decodeCommand (commandWord 3 (BitVec.ofBool hb ++ d)) = .ok (.processFrame hb d.toInt) := by
  simp [decodeCommand]

theorem decodeCommand_setMetrics (r : BitVec 23) (e : Bool) :
    decodeCommand (commandWord 4 (r ++ BitVec.ofBool e)) =
      if r = 0 then .ok (.setMetrics e) else .error .reservedBits := by
  rw [decodeCommand, opField_commandWord, metricsReserved_commandWord, metricsEnable_commandWord]
  rfl

theorem decodeCommand_getMetrics (imm : BitVec 24) :
    decodeCommand (commandWord 5 imm) = if imm = 0 then .ok .getMetrics else .error .reservedBits := by
  simp [decodeCommand]

theorem decodeCommand_destroy (imm : BitVec 24) :
    decodeCommand (commandWord 6 imm) = if imm = 0 then .ok .destroy else .error .reservedBits := by
  simp [decodeCommand]

/-! ### Decoding after encoding -/

/-- The delay of a well-formed PROCESS_FRAME fits the 23 bits of its field (R103). -/
theorem toInt_ofInt_delay {d : Int} (h : -2 ^ 22 ≤ d ∧ d < 2 ^ 22) :
    (BitVec.ofInt 23 d).toInt = d :=
  BitVec.toInt_ofInt_eq_self (by decide) h.1 h.2

/-- A well-formed operation is read back from its code. -/
theorem decodeCode_encode {i : Instr} (hi : i.WellFormed) : decodeCode (encode i) = .ok i := by
  cases i with
  | create => exact decodeCommand_create 0
  | init rate =>
    have hrate : rate < 2 ^ 24 := of_decide_eq_true hi
    have h := decodeCommand_init (BitVec.ofNat 24 rate)
    rwa [BitVec.toNat_ofNat, Nat.mod_eq_of_lt hrate] at h
  | processFrame hb d =>
    have h := decodeCommand_processFrame hb (BitVec.ofInt 23 d)
    rwa [toInt_ofInt_delay (of_decide_eq_true hi)] at h
  | setMetrics e => exact decodeCommand_setMetrics 0 e
  | getMetrics => exact decodeCommand_getMetrics 0
  | destroy => exact decodeCommand_destroy 0
  | _ => rfl

/-! ### Encoding after decoding -/

/-- The opcode is none of the six (R104, R106). -/
def reservedOpcode (op : BitVec 8) : Prop := op.toNat = 0 ∨ 7 ≤ op.toNat

/-- The operand of a command has a reserved bit set (R105). -/
def reservedOperand (op : BitVec 8) (imm : BitVec 24) : Prop :=
  ((op.toNat = 1 ∨ op.toNat = 5 ∨ op.toNat = 6) ∧ imm.toNat ≠ 0) ∨ (op.toNat = 4 ∧ 2 ≤ imm.toNat)

theorem opcode_cases (op : BitVec 8) :
    reservedOpcode op ∨ op = 1 ∨ op = 2 ∨ op = 3 ∨ op = 4 ∨ op = 5 ∨ op = 6 := by
  unfold reservedOpcode
  bv_omega

theorem decodeCommand_reservedOpcode {op : BitVec 8} (h : reservedOpcode op) (imm : BitVec 24) :
    decodeCommand (commandWord op imm) = .error .badOpcode := by
  unfold decodeCommand
  rw [opField_commandWord]
  unfold reservedOpcode at h
  split
  case h_7 => rfl
  all_goals omega

/-- The value of a SET_METRICS operand is that of its bit 0 exactly where the bits above are 0. -/
theorem metricsOperand_toNat (r : BitVec 23) (e : Bool) :
    (r ++ BitVec.ofBool e).toNat = 2 * r.toNat + e.toNat := by
  rw [Machine.append_toNat, BitVec.toNat_ofBool, Nat.mul_comm, Nat.pow_one]

theorem decodeCommand_reservedOperand {op : BitVec 8} {imm : BitVec 24} (h : reservedOperand op imm) :
    decodeCommand (commandWord op imm) = .error .reservedBits := by
  obtain ⟨hop, himm⟩ | ⟨hop, himm⟩ := h
  · have himm0 : imm ≠ 0 := fun h => himm (congrArg BitVec.toNat h)
    obtain hop | hop | hop := hop
    · obtain rfl : op = 1 := BitVec.eq_of_toNat_eq hop
      rw [decodeCommand_create, if_neg himm0]
    · obtain rfl : op = 5 := BitVec.eq_of_toNat_eq hop
      rw [decodeCommand_getMetrics, if_neg himm0]
    · obtain rfl : op = 6 := BitVec.eq_of_toNat_eq hop
      rw [decodeCommand_destroy, if_neg himm0]
  · obtain rfl : op = 4 := BitVec.eq_of_toNat_eq hop
    obtain ⟨r, x, rfl⟩ := exists_eq_append (m := 23) (n := 1) imm
    obtain ⟨e, rfl⟩ := exists_eq_ofBool x
    have hr : r ≠ 0 := by
      rintro rfl
      have he := Bool.toNat_lt e
      have hval : 2 ≤ 2 * 0 + e.toNat := himm.trans_eq (metricsOperand_toNat 0 e)
      omega
    rw [decodeCommand_setMetrics, if_neg hr]

/-- Every other word is the code of a well-formed operation. -/
theorem exists_encode_eq_commandWord {op : BitVec 8} {imm : BitVec 24} (hop : ¬reservedOpcode op)
    (himm : ¬reservedOperand op imm) :
    ∃ i : Instr, i.WellFormed ∧ encode i = .command (commandWord op imm) := by
  have hzero (h : op.toNat = 1 ∨ op.toNat = 5 ∨ op.toNat = 6) : imm = 0 := by
    by_contra h0
    exact himm (.inl ⟨h, fun hn => h0 (BitVec.eq_of_toNat_eq hn)⟩)
  obtain rfl | rfl | rfl | rfl | rfl | rfl := (opcode_cases op).resolve_left hop
  · obtain rfl := hzero (.inl rfl)
    exact ⟨.create, rfl, rfl⟩
  · refine ⟨.init imm.toNat, decide_eq_true imm.isLt, ?_⟩
    rw [encode, BitVec.ofNat_toNat, BitVec.setWidth_eq]
  · obtain ⟨x, d, rfl⟩ := exists_eq_append (m := 1) (n := 23) imm
    obtain ⟨hb, rfl⟩ := exists_eq_ofBool x
    refine ⟨.processFrame hb d.toInt, decide_eq_true ⟨d.le_toInt, d.toInt_lt⟩, ?_⟩
    rw [encode, BitVec.ofInt_toInt]
  · obtain ⟨r, x, rfl⟩ := exists_eq_append (m := 23) (n := 1) imm
    obtain ⟨e, rfl⟩ := exists_eq_ofBool x
    have hr : r = 0 := by
      by_contra hr
      have hpos : r.toNat ≠ 0 := fun h => hr (BitVec.eq_of_toNat_eq h)
      refine himm (.inr ⟨rfl, ?_⟩)
      rw [metricsOperand_toNat]
      omega
    exact hr ▸ ⟨.setMetrics e, rfl, rfl⟩
  · obtain rfl := hzero (.inr (.inl rfl))
    exact ⟨.getMetrics, rfl, rfl⟩
  · obtain rfl := hzero (.inr (.inr rfl))
    exact ⟨.destroy, rfl, rfl⟩

/-- A word that decodes to an operation is its code: an illegal word decodes to none, and a legal one is the code of
some operation, which is the one read back. -/
theorem encode_decodeCommand {w : Word} {i : Instr} (h : decodeCommand w = .ok i) :
    encode i = .command w := by
  obtain ⟨op, imm, rfl⟩ := exists_eq_commandWord w
  have hop : ¬reservedOpcode op := fun hbad => by
    rw [decodeCommand_reservedOpcode hbad] at h
    cases h
  have himm : ¬reservedOperand op imm := fun hbad => by
    rw [decodeCommand_reservedOperand hbad] at h
    cases h
  obtain ⟨j, hwf, hj⟩ := exists_encode_eq_commandWord hop himm
  have hdecode := decodeCode_encode hwf
  rw [hj] at hdecode
  obtain rfl := Except.ok.inj (h.symm.trans hdecode)
  exact hj

/-- The 32 values of SEQ and their stages (R108). -/
theorem encode_decodeStage (n : BitVec 5) : encode (decodeStage n) = .stage n := by
  revert n
  decide

theorem decodeStage_wellFormed (n : BitVec 5) : (decodeStage n).WellFormed := by
  unfold decodeStage
  split <;> rfl

/-! ### Settled: decoding and encoding are inverse to each other -/

/-- Settles O1: one direction by the operation, the other by the kind of code. -/
theorem decodeEncodeInverse : Obligations.DecodeEncodeInverse := by
  refine ⟨fun i hi => decodeCode_encode hi, fun c i h => ?_⟩
  cases c with
  | command w => exact ⟨(Machine.decodeCommand_wf h).2, encode_decodeCommand h⟩
  | stage n =>
    obtain rfl := Except.ok.inj h
    exact ⟨decodeStage_wellFormed n, encode_decodeStage n⟩

/-! ### Settled: words written out from the spec -/

/-- Settles O2: closed words, each evaluated. -/
theorem specWordsDecode : Obligations.SpecWordsDecode := by
  unfold Obligations.SpecWordsDecode
  decide

namespace Machine

/-! ### A write to CMD -/

section
variable {s : State} {w : Word} {q : List HostMove}

/-- Between commands a write to CMD starts a command (R100). -/
theorem fetch_write_cmd (hseq : s.seq = 0) (hq : s.hostQ = .write 0 w :: q) :
    fetch s = startCommand w { s with hostQ := q } := (fetch_write hseq hq).trans (if_pos rfl)

/-- A legal word runs the command it encodes. -/
theorem step_write_cmd_legal {i : Instr} (hseq : s.seq = 0) (hq : s.hostQ = .write 0 w :: q)
    (hi : decodeCommand w = .ok i) : step s = exec i { s with hostQ := q, cmd := w, done := false } := by
  unfold step
  rw [fetch_write_cmd hseq hq, startCommand, hi]

/-- A reserved opcode raises ERR_OPCODE (R106). -/
theorem step_write_cmd_badOpcode (hseq : s.seq = 0) (hq : s.hostQ = .write 0 w :: q)
    (hw : decodeCommand w = .error .badOpcode) :
    step s = .next (raise .opcode { s with hostQ := q, cmd := w, done := false }) := by
  refine step_of_done ?_
  rw [fetch_write_cmd hseq hq, startCommand, hw]

/-- A reserved bit raises ERR_ENCODING (R105). -/
theorem step_write_cmd_reservedBits (hseq : s.seq = 0) (hq : s.hostQ = .write 0 w :: q)
    (hw : decodeCommand w = .error .reservedBits) :
    step s = .next (raise .encoding { s with hostQ := q, cmd := w, done := false }) := by
  refine step_of_done ?_
  rw [fetch_write_cmd hseq hq, startCommand, hw]

end

/-- Settles O3: the fetch serves the write, and the word decodes. -/
theorem stepRunsCommandWord : Obligations.StepRunsCommandWord :=
  fun _ _ _ _ hseq hq hi => step_write_cmd_legal hseq hq hi

/-! ### Settled: illegal words -/

theorem raise_faultEnds (c : FaultCode) (s : State) :
    s.FaultEnds (raise c s) c s.life s.inst s.draws := ⟨rfl, .of_eq rfl rfl⟩

/-- Which command a code word with these fields is (R102, R103). -/
theorem encode_commandWord_cases {i : Instr} {op : BitVec 8} {imm : BitVec 24} (hwf : i.WellFormed)
    (h : encode i = .command (commandWord op imm)) :
    (op.toNat = 1 ∧ i = .create) ∨ (op.toNat = 2 ∧ i = .init imm.toNat) ∨
      (op.toNat = 3 ∧ ∃ hb d, i = .processFrame hb d) ∨
      (op.toNat = 4 ∧ i = .setMetrics (decide (imm.toNat = 1))) ∨ (op.toNat = 5 ∧ i = .getMetrics) ∨
      (op.toNat = 6 ∧ i = .destroy) := by
  cases i with
  | create =>
    obtain ⟨rfl, -⟩ := commandWord_inj (Code.command.inj h)
    exact .inl ⟨rfl, rfl⟩
  | init rate =>
    have hrate : rate < 2 ^ 24 := of_decide_eq_true hwf
    obtain ⟨rfl, rfl⟩ := commandWord_inj (Code.command.inj h)
    rw [BitVec.toNat_ofNat, Nat.mod_eq_of_lt hrate]
    exact .inr (.inl ⟨rfl, rfl⟩)
  | processFrame hb d =>
    obtain ⟨rfl, -⟩ := commandWord_inj (Code.command.inj h)
    exact .inr (.inr (.inl ⟨rfl, hb, d, rfl⟩))
  | setMetrics e =>
    obtain ⟨rfl, rfl⟩ := commandWord_inj (Code.command.inj h)
    refine .inr (.inr (.inr (.inl ⟨rfl, ?_⟩)))
    cases e <;> rfl
  | getMetrics =>
    obtain ⟨rfl, -⟩ := commandWord_inj (Code.command.inj h)
    exact .inr (.inr (.inr (.inr (.inl ⟨rfl, rfl⟩))))
  | destroy =>
    obtain ⟨rfl, -⟩ := commandWord_inj (Code.command.inj h)
    exact .inr (.inr (.inr (.inr (.inr ⟨rfl, rfl⟩))))
  | _ => cases h

/-- Settles O5: a word is illegal by its opcode or by its operand, or it is the code of a command. -/
theorem illegalWordsFault : Obligations.IllegalWordsFault := by
  intro s w q hseq hq
  obtain ⟨op, imm, rfl⟩ := exists_eq_commandWord w
  dsimp only
  rw [commandWord_toNat_div, commandWord_toNat_mod]
  refine ⟨fun hop => ?_, fun himm => ?_, fun ⟨hop, himm⟩ => ?_⟩
  · exact ⟨_, step_write_cmd_badOpcode hseq hq (decodeCommand_reservedOpcode hop imm), raise_faultEnds _ _⟩
  · exact ⟨_, step_write_cmd_reservedBits hseq hq (decodeCommand_reservedOperand himm), raise_faultEnds _ _⟩
  · obtain ⟨i, hwf, hi⟩ := exists_encode_eq_commandWord hop himm
    have hdecode : decodeCommand (commandWord op imm) = .ok i := by
      have h := decodeCode_encode hwf
      rwa [hi] at h
    exact ⟨i, hdecode, hwf, step_write_cmd_legal hseq hq hdecode, encode_commandWord_cases hwf hi⟩

end Machine

end Sys2Proof
end

section
/-! PROOFS. The stage that follows each stage (O54). -/

namespace Sys2Proof.Machine

/-! ### Settled: the successors in the stage table -/

/-- How stage `n` of a command, run in `s`, leaves SEQ (spec/30_encoding.md R108, R109; spec/60_exceptions.md R318). -/
inductive StageSuccessor (s t : State) : BitVec 5 → Prop
  /-- F_BLOCK_TEST chooses between the block loop and the end of the frame. -/
  | blockTest (h : t.seq = if 64 ≤ s.inst.farFr.length then 5 else 30) : StageSuccessor s t 4
  /-- B_PUSH closes the block loop. -/
  | loop (h : t.seq = 4) : StageSuccessor s t 29
  /-- F_POP_OUT ends the command. -/
  | last (h : t.seq = 0 ∧ t.done = true) : StageSuccessor s t 31
  /-- N_SYNTH and N_HIGHBAND may end the command with ERR_NUMERIC. -/
  | numeric {n : BitVec 5} (hn : n = 25 ∨ n = 26)
      (h : t.seq = n + 1 ∨ (t.seq = 0 ∧ t.fault = true ∧ t.done = false)) : StageSuccessor s t n
  /-- The other stages run in the order of the table. -/
  | next {n : BitVec 5} (hn : n ≠ 4 ∧ n ≠ 25 ∧ n ≠ 26 ∧ n ≠ 29 ∧ n ≠ 31) (h : t.seq = n + 1) :
      StageSuccessor s t n

theorem exec_stageSuccessor {i : Instr} {n : BitVec 5} (hi : encode i = .stage n) (hn : n ≠ 0)
    {s t : State} (h : exec i s = .next t) : StageSuccessor s t n := by
  cases i with
  | create | init | processFrame | setMetrics | getMetrics | destroy => cases hi
  | idle => cases hi; exact absurd rfl hn
  | fBlockTest => cases hi; cases h; exact .blockTest rfl
  | fEnqueue =>
    cases hi
    obtain ⟨_, _, _, -, -, -, rfl⟩ := execFEnqueue_next h
    exact .next (by decide) rfl
  | bPop =>
    cases hi
    obtain ⟨_, _, _, _, -, -, -, -, rfl⟩ := execBPop_next h
    exact .next (by decide) rfl
  | bNoise =>
    cases hi
    obtain ⟨_, _, _, _, -, rfl⟩ := execBNoise_next h
    exact .next (by decide) rfl
  | nSynth =>
    cases hi
    obtain ⟨_, _, rfl | rfl⟩ := execNSynth_next h
    · exact .numeric (.inl rfl) (.inr ⟨rfl, rfl, rfl⟩)
    · exact .numeric (.inl rfl) (.inl rfl)
  | nHighband =>
    cases hi
    obtain rfl | ⟨_, rfl⟩ := execNHighband_next h
    · exact .numeric (.inr rfl) (.inr ⟨rfl, rfl, rfl⟩)
    · exact .numeric (.inr rfl) (.inl rfl)
  | bPush =>
    cases hi
    obtain ⟨_, _, -, -, rfl⟩ := execBPush_next h
    exact .loop rfl
  | fStuff =>
    cases hi
    obtain ⟨_, _, -, -, rfl⟩ := execFStuff_next h
    exact .next (by decide) rfl
  | fPopOut =>
    cases hi
    obtain ⟨_, _, _, -, -, -, rfl⟩ := execFPopOut_next h
    exact .last ⟨rfl, rfl⟩
  | _ => cases hi; cases h; exact .next (by decide) rfl

/-- Settles O54: the stage that runs is the one whose number SEQ holds, and each operation has its one successor. -/
theorem stageSuccessors : Obligations.StageSuccessors := by
  intro s t hseq h
  have hsucc := exec_stageSuccessor (encode_decodeStage s.seq) hseq h
  generalize s.seq = n at hsucc ⊢
  cases hsucc with
  | blockTest h => exact ⟨fun _ => h, nofun, nofun, nofun, fun h4 => absurd rfl h4⟩
  | loop h => exact ⟨nofun, fun _ => h, nofun, nofun, fun _ _ _ h29 => absurd rfl h29⟩
  | last h => exact ⟨nofun, nofun, fun _ => h, nofun, fun _ _ _ _ h31 => absurd rfl h31⟩
  | numeric hn h =>
    obtain rfl | rfl := hn
    · exact ⟨nofun, nofun, nofun, fun _ => h, fun _ h25 => absurd rfl h25⟩
    · exact ⟨nofun, nofun, nofun, fun _ => h, fun _ _ h26 => absurd rfl h26⟩
  | next hn h =>
    obtain ⟨h4, h25, h26, h29, h31⟩ := hn
    exact ⟨(absurd · h4), (absurd · h29), (absurd · h31), fun h => (h.elim h25 h26).elim, fun _ _ _ _ _ => h⟩

end Sys2Proof.Machine
end

section
/-! PROOFS. The delay buffer: what F_BUFFER_FAR writes (O19), what F_FETCH_FAR reads (O20), and the alignment of the
two cursors (O21). -/

namespace Sys2Proof.Machine

/-! ### The positions of the buffer -/

/-- Offsets below the length reach different positions from one cursor. -/
theorem add_mod_inj {n c i j : Nat} (hi : i < n) (hj : j < n) (h : (c + i) % n = (c + j) % n) : i = j :=
  (Nat.ModEq.add_left_cancel' c h).eq_of_lt_of_lt hi hj

theorem circWrite_getD_other {n : Nat} {vs : List Sample} {c p : Nat} (buf : List Sample)
    (hp : ∀ j < vs.length, p ≠ (c + j) % n) :
    (circWrite n buf c vs).getD p 0#16 = buf.getD p 0#16 := by
  induction vs generalizing buf c with
  | nil => rfl
  | cons v vs ih =>
    have hhead : c % n ≠ p := (hp 0 (Nat.zero_lt_succ _)).symm
    have htail : ∀ j < vs.length, p ≠ (c + 1 + j) % n := fun j hj => by
      simpa [Nat.add_assoc, Nat.add_comm 1] using hp (j + 1) (Nat.succ_lt_succ hj)
    calc (circWrite n buf c (v :: vs)).getD p 0#16
        = (buf.set (c % n) v).getD p 0#16 := ih _ htail
      _ = buf.getD p 0#16 := by simp [List.getD_eq_getElem?_getD, List.getElem?_set_ne hhead]

/-- The samples written do not overwrite each other, as they are no more than the buffer holds. -/
theorem circWrite_getD_written {n : Nat} {buf vs : List Sample} {c j : Nat} (hbuf : buf.length = n)
    (hvs : vs.length ≤ n) (hj : j < vs.length) :
    (circWrite n buf c vs).getD ((c + j) % n) 0#16 = vs[j] := by
  induction vs generalizing buf c j with
  | nil => cases hj
  | cons v vs ih =>
    simp only [List.length_cons] at hvs hj
    cases j with
    | zero =>
      have hother : ∀ i < vs.length, c % n ≠ (c + 1 + i) % n := fun i hi h => by
        have hinj : 0 = 1 + i := add_mod_inj (by omega) (by omega) (h.trans (by rw [Nat.add_assoc]))
        omega
      have hc : c % n < buf.length := hbuf ▸ Nat.mod_lt c (by omega)
      calc (circWrite n buf c (v :: vs)).getD (c % n) 0#16
          = (buf.set (c % n) v).getD (c % n) 0#16 := circWrite_getD_other _ hother
        _ = v := by simp [List.getD_eq_getElem?_getD, hc]
    | succ j =>
      have htail := ih (buf := buf.set (c % n) v) (c := c + 1) (j := j) (by simpa using hbuf) (by omega) (by omega)
      simpa [circWrite, Nat.add_assoc, Nat.add_comm 1] using htail

theorem shiftCursor_cast {n : Nat} (hn : 0 < n) (c : Nat) (d : Int) :
    (shiftCursor n c d : Int) = ((c : Int) - d) % n :=
  Int.toNat_of_nonneg (Int.emod_nonneg _ (by omega))

theorem shiftCursor_add_mul (n c : Nat) (d k : Int) : shiftCursor n c (d + k * n) = shiftCursor n c d := by
  unfold shiftCursor
  rw [← sub_sub, Int.sub_mul_emod_self_right]

/-! ### Settled: F_BUFFER_FAR -/

theorem frame_le_farBufLen (p : Params) : FRAME_LEN ≤ p.farBufLen := Nat.le_add_right _ _

/-- The samples of FAR_IN, in order. -/
def State.farFrame (s : State) : List Sample := (List.range FRAME_LEN).map (s.winRead .farIn)

theorem State.farFrame_length (s : State) : s.farFrame.length = 80 := by simp [State.farFrame]

theorem State.farFrame_getElem (s : State) {j : Nat} (h : j < s.farFrame.length) :
    s.farFrame[j] = s.winRead .farIn j := by
  simp [State.farFrame]

theorem exec_fBufferFar (s : State) :
    exec .fBufferFar s = .next { s with
      inst := { s.inst with
        farBuf := circWrite s.cfg.farBufLen s.inst.farBuf s.inst.farBufWritePos s.farFrame
        farBufWritePos := (s.inst.farBufWritePos + FRAME_LEN) % s.cfg.farBufLen }
      seq := 2 } := rfl

/-- Settles O19: a frame is no longer than the buffer, so each of its samples stands where it was written. -/
theorem fBufferFarResult : Obligations.FBufferFarResult := by
  intro s hlen
  have hframe := s.farFrame_length
  refine ⟨_, exec_fBufferFar s, ?_⟩
  dsimp only
  refine ⟨fun j => ?_, fun p hp => ?_, ?_, rfl, ⟨rfl, fun _ => rfl⟩⟩
  · have hj : j.val < s.farFrame.length := j.isLt.trans_eq hframe.symm
    have hfits : s.farFrame.length ≤ s.cfg.farBufLen := hframe.trans_le (frame_le_farBufLen s.cfg)
    exact (circWrite_getD_written hlen hfits hj).trans (s.farFrame_getElem hj)
  · exact circWrite_getD_other _ fun j hj => hp ⟨j, hj.trans_eq hframe⟩
  · exact (circWrite_length _ _ _ _).trans hlen

/-! ### Settled: F_FETCH_FAR -/

/-- Settles O20: the cursor is a residue modulo the buffer, so a multiple of the length in the delay does not move
it. -/
theorem fFetchFarResult : Obligations.FFetchFarResult := by
  intro s
  have hcursor := shiftCursor_cast s.cfg.farBufLen_pos s.inst.farBufReadPos (s.blk.d - s.inst.knownDelay)
  refine ⟨_, rfl, ⟨fun j => ?_, ?_, rfl, rfl, fun _ => rfl⟩, fun k => ⟨_, rfl, ?_⟩⟩
  · rw [← hcursor]
    simp only [Fin.getElem_fin, Vector.getElem_ofFn]
    rfl
  · rw [← hcursor]
    rfl
  · have hsame : shiftCursor s.cfg.farBufLen s.inst.farBufReadPos
        (s.blk.d + k * s.cfg.farBufLen - s.inst.knownDelay) =
          shiftCursor s.cfg.farBufLen s.inst.farBufReadPos (s.blk.d - s.inst.knownDelay) := by
      rw [add_sub_right_comm, shiftCursor_add_mul]
    dsimp only
    rw [hsame]
    exact ⟨rfl, rfl⟩

/-! ### The lead of the write cursor -/

/-- The write cursor leads the read cursor by the known delay and `k` samples more, modulo the buffer. -/
def Inst.LeadsBy (p : Params) (k : Int) (x : Inst) : Prop :=
  (x.farBufWritePos : Int) - x.farBufReadPos ≡ x.knownDelay + k [ZMOD p.farBufLen]

theorem State.aligned_iff_of_fetching {s : State} (h : s.seq = 2) :
    s.Aligned ↔ (s.life.exists = true → s.inst.LeadsBy s.cfg FRAME_LEN) := by
  unfold State.Aligned
  rw [if_pos h]
  rfl

theorem State.aligned_iff_of_not_fetching {s : State} (h : s.seq ≠ 2) :
    s.Aligned ↔ (s.life.exists = true → s.inst.LeadsBy s.cfg 0) := by
  unfold State.Aligned
  rw [if_neg h]
  rfl

/-- The two filters agree in the cursors of the delay buffer and the delay they stand for. -/
def Inst.SameCursors (x y : Inst) : Prop :=
  y.farBufWritePos = x.farBufWritePos ∧ y.farBufReadPos = x.farBufReadPos ∧ y.knownDelay = x.knownDelay

theorem Inst.SameCursors.refl (x : Inst) : x.SameCursors x := ⟨rfl, rfl, rfl⟩

theorem Inst.SameCursors.leadsBy {x y : Inst} (h : x.SameCursors y) {p : Params} {k : Int}
    (hx : x.LeadsBy p k) : y.LeadsBy p k := by
  obtain ⟨hwrite, hread, hdelay⟩ := h
  unfold Inst.LeadsBy
  rw [hwrite, hread, hdelay]
  exact hx

/-! ### The two stages of the buffer -/

theorem execFBufferFar_leadsBy {s t : State} (hs : s.inst.LeadsBy s.cfg 0) (h : execFBufferFar s = .next t) :
    t.inst.LeadsBy s.cfg FRAME_LEN := by
  cases h
  calc ((((s.inst.farBufWritePos + FRAME_LEN) % s.cfg.farBufLen : Nat) : Int) - s.inst.farBufReadPos)
      ≡ (s.inst.farBufWritePos + FRAME_LEN : Nat) - s.inst.farBufReadPos [ZMOD s.cfg.farBufLen] :=
        (Int.natCast_modEq_iff.2 (Nat.mod_modEq _ _)).sub_right _
    _ = (s.inst.farBufWritePos - s.inst.farBufReadPos) + FRAME_LEN := by push_cast; ring
    _ ≡ (s.inst.knownDelay + 0) + FRAME_LEN [ZMOD s.cfg.farBufLen] := hs.add_right _
    _ = s.inst.knownDelay + FRAME_LEN := by ring

/-- The read cursor moves by a frame less the change of the delay, so the new delay takes the place of the old one
and the frame that F_BUFFER_FAR was ahead is made up. -/
theorem execFFetchFar_leadsBy {s t : State} (hs : s.inst.LeadsBy s.cfg FRAME_LEN)
    (h : execFFetchFar s = .next t) : t.inst.LeadsBy s.cfg 0 := by
  have hread : (t.inst.farBufReadPos : Int) ≡
      s.inst.farBufReadPos - (s.blk.d - s.inst.knownDelay) + FRAME_LEN [ZMOD s.cfg.farBufLen] := by
    cases h
    refine (Int.natCast_modEq_iff.2 (Nat.mod_modEq _ _)).trans ?_
    rw [Nat.cast_add, shiftCursor_cast s.cfg.farBufLen_pos]
    exact (Int.mod_modEq _ _).add_right _
  have hdelay : t.inst.knownDelay = s.blk.d := by cases h; rfl
  have hwrite : t.inst.farBufWritePos = s.inst.farBufWritePos := by cases h; rfl
  unfold Inst.LeadsBy
  rw [hdelay, hwrite]
  calc (s.inst.farBufWritePos : Int) - t.inst.farBufReadPos
      ≡ s.inst.farBufWritePos - (s.inst.farBufReadPos - (s.blk.d - s.inst.knownDelay) + FRAME_LEN)
        [ZMOD s.cfg.farBufLen] := hread.sub_left _
    _ = (s.inst.farBufWritePos - s.inst.farBufReadPos) + (s.blk.d - s.inst.knownDelay - FRAME_LEN) := by ring
    _ ≡ (s.inst.knownDelay + FRAME_LEN) + (s.blk.d - s.inst.knownDelay - FRAME_LEN) [ZMOD s.cfg.farBufLen] :=
        hs.add_right _
    _ = s.blk.d + 0 := by ring

/-! ### The other stages -/

theorem Inst.measure_sameCursors (p : Params) (b : Blk) (x : Inst) : x.SameCursors (x.measure p b) := by
  obtain ⟨erl, aNlp, erle, n, h, -⟩ := Inst.measure_eq p b x
  rw [h]
  exact ⟨rfl, rfl, rfl⟩

/-- Only the two stages of the delay buffer move a cursor. -/
theorem exec_stage_sameCursors {i : Instr} (hi : i.isCommand = false) (hbuffer : i ≠ .fBufferFar)
    (hfetch : i ≠ .fFetchFar) {s t : State} (h : exec i s = .next t) : s.inst.SameCursors t.inst := by
  cases i with
  | create | init | processFrame | setMetrics | getMetrics | destroy => cases hi
  | fBufferFar => exact absurd rfl hbuffer
  | fFetchFar => exact absurd rfl hfetch
  | fEnqueue =>
    obtain ⟨_, _, _, -, -, -, rfl⟩ := execFEnqueue_next h
    exact ⟨rfl, rfl, rfl⟩
  | bPop =>
    obtain ⟨_, _, _, _, -, -, -, -, rfl⟩ := execBPop_next h
    exact ⟨rfl, rfl, rfl⟩
  | bPush =>
    obtain ⟨_, _, -, -, rfl⟩ := execBPush_next h
    exact ⟨rfl, rfl, rfl⟩
  | fStuff =>
    obtain ⟨_, _, -, -, rfl⟩ := execFStuff_next h
    exact ⟨rfl, rfl, rfl⟩
  | fPopOut =>
    obtain ⟨_, _, _, -, -, -, rfl⟩ := execFPopOut_next h
    exact ⟨rfl, rfl, rfl⟩
  | bNoise =>
    obtain ⟨_, _, _, _, -, rfl⟩ := execBNoise_next h
    exact ⟨rfl, rfl, rfl⟩
  | nSynth =>
    obtain ⟨_, _, rfl | rfl⟩ := execNSynth_next h
    · exact ⟨rfl, rfl, rfl⟩
    · exact ⟨rfl, rfl, rfl⟩
  | nHighband =>
    obtain rfl | ⟨_, rfl⟩ := execNHighband_next h
    · exact ⟨rfl, rfl, rfl⟩
    · exact ⟨rfl, rfl, rfl⟩
  | mUpdate =>
    obtain rfl := Host.Outcome.next.inj h
    dsimp only
    split
    · exact Inst.measure_sameCursors _ _ _
    · exact ⟨rfl, rfl, rfl⟩
  | _ => cases h; exact ⟨rfl, rfl, rfl⟩

theorem StageCase.life_cfg {s t : State} (h : StageCase s t) : t.life = s.life ∧ t.cfg = s.cfg := by
  cases h with
  | goesOn | faults | ends => exact ⟨rfl, rfl⟩

theorem exec_idle {s t : State} (h : exec .idle s = .next t) : t = s := (Host.Outcome.next.inj h).symm

/-- Only F_BUFFER_FAR, which is stage 1, is followed by F_FETCH_FAR. -/
theorem exec_stage_seq_ne_two {i : Instr} {n : BitVec 5} (hi : encode i = .stage n) (hn0 : n ≠ 0) (hn1 : n ≠ 1)
    {s t : State} (h : exec i s = .next t) : t.seq ≠ 2 := by
  have hnext : n + 1 ≠ 2 := by bv_omega
  cases exec_stageSuccessor hi hn0 h with
  | blockTest h =>
    rw [h]
    split <;> decide
  | loop h => rw [h]; decide
  | last h =>
    obtain ⟨h, -⟩ := h
    rw [h]; decide
  | numeric _ h =>
    obtain h | ⟨h, -⟩ := h
    · exact h ▸ hnext
    · rw [h]; decide
  | next _ h => exact h ▸ hnext

/-! ### Stages, commands and the alignment law -/

/-- A stage other than F_FETCH_FAR keeps the alignment law: F_BUFFER_FAR puts the write cursor one frame ahead, and
the others move no cursor. -/
theorem stage_aligned {s t : State} (hs : s.Aligned) (hseq : s.seq ≠ 2)
    (h : exec (decodeStage s.seq) s = .next t) : t.Aligned := by
  have hcommand := decodeStage_not_command s.seq
  have hcode := encode_decodeStage s.seq
  obtain ⟨hlife, hcfg⟩ := (exec_stage_case hcommand h).life_cfg
  have hlead := (State.aligned_iff_of_not_fetching hseq).1 hs
  by_cases h0 : s.seq = 0
  · have hidle : decodeStage s.seq = .idle := h0 ▸ rfl
    rw [hidle] at h
    exact exec_idle h ▸ hs
  by_cases h1 : s.seq = 1
  · have hbuffer : decodeStage s.seq = .fBufferFar := h1 ▸ rfl
    rw [hbuffer] at h
    have hseq' : t.seq = 2 := by cases h; rfl
    rw [State.aligned_iff_of_fetching hseq', hlife, hcfg]
    exact fun hexists => execFBufferFar_leadsBy (hlead hexists) h
  · have hbuffer : decodeStage s.seq ≠ .fBufferFar := fun hi => by
      rw [hi] at hcode
      exact h1 (Code.stage.inj hcode).symm
    have hfetch : decodeStage s.seq ≠ .fFetchFar := fun hi => by
      rw [hi] at hcode
      exact hseq (Code.stage.inj hcode).symm
    rw [State.aligned_iff_of_not_fetching (exec_stage_seq_ne_two hcode h0 h1 h), hlife, hcfg]
    exact fun hexists => (exec_stage_sameCursors hcommand hbuffer hfetch h).leadsBy (hlead hexists)

theorem execFFetchFar_aligned {s t : State} (hs : s.Aligned) (hseq : s.seq = 2)
    (h : execFFetchFar s = .next t) : t.Aligned := by
  have hlead := (State.aligned_iff_of_fetching hseq).1 hs
  have hkeep : t.seq = 3 ∧ t.life = s.life ∧ t.cfg = s.cfg := by cases h; exact ⟨rfl, rfl, rfl⟩
  obtain ⟨hseq', hlife, hcfg⟩ := hkeep
  rw [State.aligned_iff_of_not_fetching (hseq' ▸ by decide), hlife, hcfg]
  exact fun hexists => execFFetchFar_leadsBy (hlead hexists) h

/-- The end of a command, as a fault leaves it too, keeps the alignment law: SEQ names no stage. -/
theorem State.Aligned.of_seq_zero {s t : State} (hs : s.Aligned) (hseq : s.seq ≠ 2) (hseq' : t.seq = 0)
    (hlife : t.life = s.life) (hcfg : t.cfg = s.cfg) (hinst : s.inst.SameCursors t.inst) : t.Aligned := by
  rw [State.aligned_iff_of_not_fetching (hseq' ▸ by decide), hlife, hcfg]
  exact fun hexists => hinst.leadsBy ((State.aligned_iff_of_not_fetching hseq).1 hs hexists)

theorem Inst.withMetrics_sameCursors (p : Params) (enable : Bool) (x : Inst) :
    x.SameCursors (x.withMetrics p enable) := by
  cases enable with
  | false => exact .refl x
  | true => exact .refl x

/-- A command other than PROCESS_FRAME leaves the cursors, or clears them along with the delay, or leaves no filter;
PROCESS_FRAME goes to stage 1. -/
theorem CommandCase.aligned {s t : State} (hs : s.Aligned) (hseq : s.seq ≠ 2) (h : CommandCase s t) :
    t.Aligned := by
  cases h with
  | rejected | exported => exact hs.of_seq_zero hseq rfl rfl rfl (.refl _)
  | metrics enable => exact hs.of_seq_zero hseq rfl rfl rfl (Inst.withMetrics_sameCursors _ enable _)
  | failed | destroyed => exact nofun
  | created | inited => exact fun _ => rfl
  | starts d =>
    exact (State.aligned_iff_of_not_fetching (by decide : (1 : BitVec 5) ≠ 2)).2
      ((State.aligned_iff_of_not_fetching hseq).1 hs)

/-- While a command runs, a step is the stage that SEQ names or the hardware reset. -/
theorem step_busy_cases {s t : State} (hseq : s.seq ≠ 0) (h : step s = .next t) :
    (∃ q, exec (decodeStage s.seq) { s with hostQ := q } = .next t) ∨
      ∃ q simd, t = hardwareReset simd { s with hostQ := q } := by
  unfold step at h
  cases fetch_cases s with
  | stage q _ hf =>
    rw [hf] at h
    exact .inl ⟨q, h⟩
  | reset q simd _ hf =>
    rw [hf] at h
    exact .inr ⟨q, simd, (Host.Outcome.next.inj h).symm⟩
  | served q f h0 => exact absurd h0 hseq

/-! ### Settled: every step keeps the alignment law -/

/-- Settles O21: between the two stages of the buffer the step is F_FETCH_FAR, or a reset that leaves no filter;
elsewhere the law has no frame in it, and each move of the machine keeps or establishes it. -/
theorem stepKeepsAlignment : Obligations.StepKeepsAlignment := by
  intro s t hs h
  by_cases hseq : s.seq = 2
  · obtain ⟨q, h⟩ | ⟨q, simd, rfl⟩ := step_busy_cases (hseq ▸ by decide) h
    · have hs' : ({ s with hostQ := q } : State).Aligned := hs
      have hfetch : decodeStage s.seq = .fFetchFar := hseq ▸ rfl
      rw [hfetch] at h
      exact execFFetchFar_aligned hs' hseq h
    · exact nofun
  · cases step_cases h with
    | stage q _ h =>
      have hs' : ({ s with hostQ := q } : State).Aligned := hs
      exact stage_aligned hs' hseq h
    | reset q simd _ h => exact h ▸ nofun
    | command q w i _ _ hi h =>
      obtain ⟨hcmd, hwf⟩ := decodeCommand_wf hi
      have hs' : ({ s with hostQ := q, cmd := w, done := false } : State).Aligned := hs
      exact CommandCase.aligned hs' hseq (exec_command_case hcmd hwf h)
    | illegal q w c _ h => exact h ▸ hs.of_seq_zero hseq rfl rfl rfl (.refl _)
    | access q m r _ _ h => exact h ▸ hs

end Sys2Proof.Machine
end

section
/-! PROOFS. Zeros of either sign: what the binary32 operations, the complex operations and the transforms make of
them (spec/00_scope.md R12, R17 N1). -/

namespace Sys2Proof

/-! ### Zeros and finite numbers -/

theorem F32.isZero_iff {a : F32} : a.isZero = true ↔ a.expField = 0 ∧ a.fracField = 0 := by
  simp [F32.isZero]

theorem F32.isFinite_iff {a : F32} : a.isFinite = true ↔ a.expField ≠ 255 := by
  simp [F32.isFinite]

theorem F32.isNaN_of_isFinite {a : F32} (h : a.isFinite = true) : a.isNaN = false := by
  simp [F32.isNaN, F32.isFinite_iff.1 h]

theorem F32.isInf_of_isFinite {a : F32} (h : a.isFinite = true) : a.isInf = false := by
  simp [F32.isInf, F32.isFinite_iff.1 h]

theorem F32.isFinite_of_isZero {a : F32} (h : a.isZero = true) : a.isFinite = true := by
  obtain ⟨hexp, -⟩ := F32.isZero_iff.1 h
  simp [F32.isFinite, hexp]

theorem F32.sig_of_isZero {a : F32} (h : a.isZero = true) : a.sig = 0 := by
  obtain ⟨hexp, hfrac⟩ := F32.isZero_iff.1 h
  simp [F32.sig, hexp, hfrac]

@[simp] theorem F32.zero_isZero : F32.zero.isZero = true := by decide

@[simp] theorem F32.zeroOf_isZero (s : Bool) : (F32.zeroOf s).isZero = true := by
  cases s with
  | false => decide
  | true => decide

/-! ### The operations on zeros -/

/-- The change of sign leaves the two other fields of a number. -/
theorem F32.neg_fields {a : F32} (h : a.isNaN = false) :
    a.neg.expField = a.expField ∧ a.neg.fracField = a.fracField := by
  have hneg : a.neg = ⟨a.bits ^^^ 0x80000000#32⟩ := by simp [F32.neg, h]
  rw [hneg]
  constructor
  · simp [F32.expField, BitVec.extractLsb'_xor]
  · simp [F32.fracField, BitVec.extractLsb'_xor]

theorem F32.isFinite_neg {a : F32} (h : a.isFinite = true) : a.neg.isFinite = true := by
  obtain ⟨hexp, -⟩ := F32.neg_fields (F32.isNaN_of_isFinite h)
  rw [F32.isFinite_iff, hexp]
  exact F32.isFinite_iff.1 h

theorem F32.isZero_neg {a : F32} (h : a.isZero = true) : a.neg.isZero = true := by
  obtain ⟨hexp, hfrac⟩ := F32.neg_fields (F32.isNaN_of_isFinite (F32.isFinite_of_isZero h))
  rw [F32.isZero_iff, hexp, hfrac]
  exact F32.isZero_iff.1 h

theorem F32.isZero_add {a b : F32} (ha : a.isZero = true) (hb : b.isZero = true) :
    (a.add b).isZero = true := by
  have hfa := F32.isFinite_of_isZero ha
  have hfb := F32.isFinite_of_isZero hb
  simp [F32.add, F32.isNaN_of_isFinite, F32.isInf_of_isFinite, hfa, hfb, ha, hb]

theorem F32.isZero_sub {a b : F32} (ha : a.isZero = true) (hb : b.isZero = true) :
    (a.sub b).isZero = true := F32.isZero_add ha (F32.isZero_neg hb)

/-- A product of finite factors is a zero where a significand is; an infinite or NaN factor would make it a NaN. -/
theorem F32.isZero_mul {a b : F32} (ha : a.isFinite = true) (hb : b.isFinite = true)
    (h : a.isZero = true ∨ b.isZero = true) : (a.mul b).isZero = true := by
  have hsig : a.sig * b.sig = 0 :=
    h.elim (fun h => by rw [F32.sig_of_isZero h, Nat.zero_mul]) fun h => by
      rw [F32.sig_of_isZero h, Nat.mul_zero]
  simp [F32.mul, F32.round, F32.isNaN_of_isFinite, F32.isInf_of_isFinite, ha, hb, hsig]

/-! ### Complex zeros -/

/-- Both components are zeros of either sign. -/
def C32.IsZero (c : C32) : Prop := c.re.isZero = true ∧ c.im.isZero = true

/-- Both components are finite. -/
def C32.IsFinite (c : C32) : Prop := c.re.isFinite = true ∧ c.im.isFinite = true

theorem C32.zero_isZero : C32.zero.IsZero := ⟨F32.zero_isZero, F32.zero_isZero⟩

theorem C32.IsFinite.conj {c : C32} (h : c.IsFinite) : c.conj.IsFinite := by
  obtain ⟨hre, him⟩ := h
  exact ⟨hre, F32.isFinite_neg him⟩

theorem C32.IsZero.add {a b : C32} (ha : a.IsZero) (hb : b.IsZero) : (a.add b).IsZero := by
  obtain ⟨hare, haim⟩ := ha
  obtain ⟨hbre, hbim⟩ := hb
  exact ⟨F32.isZero_add hare hbre, F32.isZero_add haim hbim⟩

theorem C32.IsFinite.mul_isZero {a b : C32} (ha : a.IsFinite) (hb : b.IsZero) : (a.mul b).IsZero := by
  obtain ⟨hare, haim⟩ := ha
  obtain ⟨hbre, hbim⟩ := hb
  have hzero {x y : F32} (hx : x.isFinite = true) (hy : y.isZero = true) : (x.mul y).isZero = true :=
    F32.isZero_mul hx (F32.isFinite_of_isZero hy) (.inr hy)
  exact ⟨F32.isZero_sub (hzero hare hbre) (hzero haim hbim),
    F32.isZero_add (hzero hare hbim) (hzero haim hbre)⟩

/-! ### The transforms of zeros (N1) -/

/-- Every bin is a complex zero. -/
def Spectrum.IsZero (x : Spectrum) : Prop := ∀ k : Fin 65, x[k].IsZero

theorem Spectrum.zero_isZero : Spectrum.zero.IsZero := fun k => by
  simpa [Spectrum.zero] using C32.zero_isZero

theorem Num.timeIsZero_eq_true {x : Time} :
    Num.timeIsZero x = true ↔ ∀ n : Fin 128, x[n].isZero = true := by
  simp [Num.timeIsZero, Fin.forall_iff]

theorem Num.spectrumIsZero_eq_true {x : Spectrum} : Num.spectrumIsZero x = true ↔ x.IsZero := by
  simp [Num.spectrumIsZero, Spectrum.IsZero, C32.IsZero, Fin.forall_iff]

theorem Num.realEnds_isZero {x : Spectrum} (h : x.IsZero) : (Num.realEnds x).IsZero := fun k => by
  obtain ⟨hre, -⟩ := h k
  simp only [Num.realEnds, Fin.getElem_fin, Vector.getElem_ofFn]
  split
  · exact ⟨hre, F32.zero_isZero⟩
  · exact h k

theorem Num.fwdReal_isZero {x : Time} (h : ∀ n : Fin 128, x[n].isZero = true) :
    (Num.fwdReal x).IsZero := by
  refine Num.realEnds_isZero fun k => ?_
  simp [C32.IsZero, Num.timeIsZero_eq_true.2 h]

theorem Num.invReal_isZero {x : Spectrum} (h : x.IsZero) (n : Fin 128) :
    (Num.invReal x)[n].isZero = true := by
  simp [Num.invReal, Num.spectrumIsZero_eq_true.2 (Num.realEnds_isZero h)]

end Sys2Proof
end

section
/-! PROOFS. The arrays of the adaptive filter: the two halves of a history and the slots of a bank of spectra
(spec/10_state.md R32, spec/20_memory.md R75). -/

namespace Sys2Proof

/-! ### The halves of a history -/

/-- What holds of every element of both halves holds of every element. -/
theorem Time.forall_of_halves {P : F32 → Prop} {x : Time} (hold : ∀ n, P (oldHalf x n))
    (hnew : ∀ n, P (newHalf x n)) (n : Fin 128) : P x[n] := by
  by_cases h : n.val < 64
  · exact hold ⟨n, h⟩
  · have hn : 64 + (n.val - 64) = n.val := by omega
    have hlast := hnew ⟨n.val - 64, by omega⟩
    simp only [newHalf, hn] at hlast
    exact hlast

/-- A history is its two halves. -/
theorem Time.eq_joinHalves {x : Time} {old new : Fin 64 → F32}
    (h : ∀ n : Fin 64, x[n.val] = old n ∧ x[64 + n.val] = new n) : x = joinHalves old new := by
  ext n hn
  by_cases hlt : n < 64
  · obtain ⟨hold, -⟩ := h ⟨n, hlt⟩
    simpa [joinHalves, hlt] using hold
  · obtain ⟨-, hnew⟩ := h ⟨n - 64, by omega⟩
    have hn' : 64 + (n - 64) = n := by omega
    simpa only [joinHalves, Vector.getElem_ofFn, hlt, dite_false, hn'] using hnew

theorem Machine.setNewHalf_getElem (x : Time) (new : Fin 64 → F32) (n : Fin 64) :
    (Machine.setNewHalf x new)[n.val] = x[n.val] ∧ (Machine.setNewHalf x new)[64 + n.val] = new n :=
  ⟨joinHalves_old (oldHalf x) new n, joinHalves_new (oldHalf x) new n⟩

/-! ### The slots of a bank -/

theorem bankAt_of_lt {b : List Spectrum} {p : Nat} (h : p < b.length) : bankAt b p = b[p] := by
  simp [bankAt, h]

theorem bankAt_of_le {b : List Spectrum} {p : Nat} (h : b.length ≤ p) : bankAt b p = Spectrum.zero := by
  simp [bankAt, h]

theorem bankAt_set_self {b : List Spectrum} {p : Nat} (h : p < b.length) (x : Spectrum) :
    bankAt (b.set p x) p = x := by
  simp [bankAt, h]

theorem bankAt_set_ne (b : List Spectrum) {p q : Nat} (h : p ≠ q) (x : Spectrum) :
    bankAt (b.set p x) q = bankAt b q := by
  simp [bankAt, List.getElem?_set_ne h]

theorem bankAt_map_zero (b : List Spectrum) (p : Nat) :
    bankAt (b.map fun _ => Spectrum.zero) p = Spectrum.zero := by
  by_cases h : p < b.length
  · simp [bankAt, h]
  · exact bankAt_of_le (by simpa using h)

end Sys2Proof
end

section
/-! PROOFS. The stages of the adaptive filter and N_DIVERGE, each with its whole result (O29 to O38). -/

namespace Sys2Proof.Machine

/-! ### Settled: B_LOAD -/

/-- Settles O29: a new half takes the block and leaves the old half. -/
theorem bLoadResult : Obligations.BLoadResult := by
  intro s
  have hset (x : Time) (b : Block16) (n : Fin 64) :
      (setNewHalf x fun t => F32.ofSample b[t])[n.val] = x[n.val] ∧
        (setNewHalf x fun t => F32.ofSample b[t])[64 + n.val] = F32.ofInt b[n].toInt :=
    setNewHalf_getElem x (fun t => F32.ofSample b[t]) n
  refine ⟨_, rfl, fun n => ?_, fun hwide => ?_, rfl, fun _ => rfl⟩
  · obtain ⟨hxold, hxnew⟩ := hset s.inst.xBuf s.blk.farBl n
    obtain ⟨hdold, hdnew⟩ := hset s.inst.dBuf s.blk.nearBl n
    refine ⟨hxold, hxnew, hdold, hdnew, fun hwide => ?_⟩
    simp only [Inst.highBand_eq_true.2 hwide, if_true]
    exact hset s.inst.dBufH s.blk.nearBlH n
  · exact if_neg (mt Inst.highBand_eq_true.1 hwide)

/-! ### Settled: B_XFORM and B_ERR_XFORM -/

theorem fwdReal_im_ends (x : Time) : (Num.fwdReal x)[0].im = F32.zero ∧ (Num.fwdReal x)[64].im = F32.zero :=
  ⟨Num.realEnds_im_zero _, Num.realEnds_im_last _⟩

/-- Settles O30: the forward transform has real ends and is zero for zero. -/
theorem transformResults : Obligations.TransformResults := by
  intro s
  obtain ⟨hx0, hx64⟩ := fwdReal_im_ends s.inst.xBuf
  obtain ⟨hd0, hd64⟩ := fwdReal_im_ends s.inst.dBuf
  refine ⟨⟨_, rfl, rfl, rfl, hx0, hx64, hd0, hd64, Num.fwdReal_isZero, rfl, fun _ => rfl⟩,
    ⟨_, rfl, fun z hz => ?_, rfl, fun _ => rfl⟩⟩
  rw [Time.eq_joinHalves hz]

/-! ### Settled: B_POW -/

/-- Settles O31: the model's smoothing, taken bin by bin. -/
theorem bPowResult : Obligations.BPowResult := by
  intro s
  exact ⟨_, rfl, fun k => ⟨Vector.getElem_ofFn k.isLt, Vector.getElem_ofFn k.isLt⟩, rfl, fun _ => rfl⟩

/-! ### Settled: B_NOISE -/

/-- The decaying minimum after a block (R155). -/
def Inst.trackedMin (p : Params) (x : Inst) : Bins :=
  if NOISE_START < x.noiseEstCtr then
    Vector.ofFn fun k : Fin 65 => trackMin p.noiseStep x.dPow[k] x.dMinPow[k]
  else x.dMinPow

/-- The start-up minimum after a block (R156). -/
def Inst.blendedInit (p : Params) (x : Inst) : Bins :=
  if x.noiseEstCtr < noiseInitBlocks x.mult then
    Vector.ofFn fun k : Fin 65 => blendInit (x.trackedMin p)[k] x.dInitMinPow[k]
  else x.dInitMinPow

theorem Inst.trackedMin_getElem (p : Params) (x : Inst) (k : Fin 65) :
    (x.trackedMin p)[k] =
      if NOISE_START < x.noiseEstCtr then trackMin p.noiseStep x.dPow[k] x.dMinPow[k] else x.dMinPow[k] := by
  unfold Inst.trackedMin
  split
  · exact Vector.getElem_ofFn k.isLt
  · rfl

theorem Inst.blendedInit_getElem (p : Params) (x : Inst) (k : Fin 65) :
    (x.blendedInit p)[k] =
      if x.noiseEstCtr < noiseInitBlocks x.mult then blendInit (x.trackedMin p)[k] x.dInitMinPow[k]
      else x.dInitMinPow[k] := by
  unfold Inst.blendedInit
  split
  · exact Vector.getElem_ofFn k.isLt
  · rfl

theorem exec_bNoise (s : State) :
    exec .bNoise s = .next { s with
      inst := { s.inst with
        dMinPow := s.inst.trackedMin s.cfg
        dInitMinPow := s.inst.blendedInit s.cfg
        noiseEstCtr := if s.inst.noiseEstCtr < noiseInitBlocks s.inst.mult then s.inst.noiseEstCtr + 1
          else s.inst.noiseEstCtr
        noiseSel := decide (noiseInitBlocks s.inst.mult ≤ s.inst.noiseEstCtr) }
      seq := 10 } := by
  by_cases h : s.inst.noiseEstCtr < noiseInitBlocks s.inst.mult
  · have hsel : ¬noiseInitBlocks s.inst.mult ≤ s.inst.noiseEstCtr := Nat.not_le.2 h
    simp only [exec, execBNoise, Inst.blendedInit, h, hsel, if_true, decide_false]
    rfl
  · have hsel : noiseInitBlocks s.inst.mult ≤ s.inst.noiseEstCtr := Nat.not_lt.1 h
    simp only [exec, execBNoise, Inst.blendedInit, h, hsel, if_false, decide_true]
    rfl

/-- Settles O32: the minimum follows the counter before its increment, and the start-up ramp the minimum of this
block. -/
theorem bNoiseResult : Obligations.BNoiseResult := by
  intro s
  exact ⟨_, exec_bNoise s,
    fun k => ⟨Inst.trackedMin_getElem s.cfg s.inst k, Inst.blendedInit_getElem s.cfg s.inst k⟩,
    rfl, fun _ => rfl⟩

/-! ### Settled: B_FILTER -/

theorem rotateBack_cast {n : Nat} (hn : 0 < n) (pos : Nat) :
    (rotateBack n pos : Int) = ((pos : Int) - 1) % n := shiftCursor_cast hn pos 1

/-- Settles O33: the index turned back lies in the bank, so the far spectrum is stored there and nowhere else. -/
theorem bFilterResult : Obligations.BFilterResult := by
  intro s hlen
  have hpos : rotateBack s.cfg.nrPart s.inst.xfBufBlockPos < s.inst.xfBuf.length :=
    hlen ▸ rotateBack_lt s.cfg.nrPart_pos _
  refine ⟨_, rfl, rotateBack_cast s.cfg.nrPart_pos _, bankAt_set_self hpos _,
    fun p hp => bankAt_set_ne _ hp.symm _, List.length_set.trans hlen, fun k => ?_, rfl, fun _ => rfl⟩
  simp only [Fin.getElem_fin, Vector.getElem_ofFn]
  rfl

/-! ### Settled: B_ERROR -/

/-- Of a number the error sample is its saturation, not the free value. -/
theorem sat16_eq_errorSample {e : F32} (h : e.isNaN = false) (draw t : Nat) :
    sat16 e = some (errorSample draw t e) := by
  obtain ⟨v, hv⟩ : ∃ v, sat16 e = some v := by
    unfold sat16
    simp only [h, Bool.false_eq_true, if_false]
    split_ifs
    all_goals exact ⟨_, rfl⟩
  simp [errorSample, hv]

/-- Settles O34: which half of the histories and of the inverse transform enters where. -/
theorem bErrorResult : Obligations.BErrorResult := by
  intro s
  refine ⟨_, rfl, fun n => ?_, rfl, fun _ => rfl⟩
  obtain ⟨hold, hnew⟩ := setNewHalf_getElem s.inst.eBuf (fun t => (errorBlock s.blk.yf s.inst.dBuf)[t]) n
  refine ⟨Vector.getElem_ofFn n.isLt, hold, hnew, fun hnan => ?_⟩
  dsimp only at hnan ⊢
  rw [sat16_eq_errorSample hnan s.draws n]
  simp only [Fin.getElem_fin, Vector.getElem_ofFn]

/-! ### Settled: B_SCALE -/

/-- Settles O35: the bin is normalised and clamped before the step size is applied. -/
theorem bScaleResult : Obligations.BScaleResult := by
  intro s
  refine ⟨_, rfl, fun k => ?_, rfl, fun _ => rfl⟩
  exact (Vector.getElem_ofFn k.isLt).trans (apply_ite (C32.scale s.inst.mu) _ _ _)

/-! ### Settled: B_ADAPT -/

/-- Every partition takes its own update. -/
theorem bankAt_adaptBank (p : Params) {x : Inst} (ef : Spectrum) {i : Nat} (h : i < x.wfBuf.length) :
    bankAt (adaptBank p x ef) i = addSpectra (bankAt x.wfBuf i)
      (adaptStep p.unconstr (bankAt x.xfBuf (slotOf p.nrPart x.xfBufBlockPos i)) ef) := by
  rw [bankAt_of_lt (by simpa using h), bankAt_of_lt h]
  simp [adaptBank]

theorem addSpectra_getElem (a b : Spectrum) (k : Fin 65) : (addSpectra a b)[k] = a[k].add b[k] := by
  simp [addSpectra]

theorem crossTerm_getElem (x ef : Spectrum) (k : Fin 65) : (crossTerm x ef)[k] = x[k].conj.mul ef[k] := by
  simp [crossTerm]

theorem exec_bAdapt_on {s : State} (h : s.cfg.adaptEn = true) :
    exec .bAdapt s =
      .next { s with inst := { s.inst with wfBuf := adaptBank s.cfg s.inst s.blk.ef }, seq := 15 } := by
  simp only [exec, execBAdapt, h, if_true]

theorem exec_bAdapt_off {s : State} (h : s.cfg.adaptEn = false) :
    exec .bAdapt s = .next { s with seq := 15 } := by
  simp only [exec, execBAdapt, h, Bool.false_eq_true, if_false]

/-- Settles O36: the given cross term and time response are those of the model, bin by bin and half by half. -/
theorem bAdaptResult : Obligations.BAdaptResult := by
  intro s
  cases hen : s.cfg.adaptEn with
  | false => exact ⟨_, exec_bAdapt_off hen, fun _ => rfl, nofun, rfl, rfl, fun _ => rfl⟩
  | true =>
    refine ⟨_, exec_bAdapt_on hen, nofun, fun _ i hi g hg => ?_, adaptBank_length _ _ _, rfl, fun _ => rfl⟩
    have hcross : crossTerm (bankAt s.inst.xfBuf (slotOf s.cfg.nrPart s.inst.xfBufBlockPos i)) s.blk.ef = g := by
      ext1 k hk
      exact (crossTerm_getElem _ _ ⟨k, hk⟩).trans (hg ⟨k, hk⟩).symm
    refine ⟨fun hun k => ?_, fun hcon v hv k => ?_⟩
    · simp only [bankAt_adaptBank s.cfg s.blk.ef hi, addSpectra_getElem, adaptStep, hun, if_true, hcross]
    · have hconstrain : constrain g = Num.fwdReal v := by rw [Time.eq_joinHalves hv]; rfl
      simp only [bankAt_adaptBank s.cfg s.blk.ef hi, addSpectra_getElem, adaptStep, hcon, Bool.false_eq_true,
        if_false, hcross, hconstrain]

/-! ### Settled: N_DIVERGE -/

/-- R174 as a chain of thresholds: a set flag is cleared only well below the near power. -/
theorem divergeFlag_eq (flag : Bool) (sdSum seSum : F32) :
    divergeFlag flag sdSum seSum =
      if flag = false then seSum.gt sdSum
      else if (seSum.mul Lit.c1_05).lt sdSum then false else true := by
  cases flag with
  | false => rfl
  | true => cases h : (seSum.mul Lit.c1_05).lt sdSum <;> simp [divergeFlag, h]

/-- Settles O37: the substitution reads the new flag, and the hard reset clears every partition. -/
theorem nDivergeResult : Obligations.NDivergeResult := by
  intro s
  refine ⟨_, rfl, divergeFlag_eq _ _ _, rfl, ?_, fun hdue i k => ?_, fun hkeep => ?_, rfl, fun _ => rfl⟩
  · dsimp only
    split
    · exact List.length_map _
    · rfl
  · simp only [hardResetDue, hdue, if_true, bankAt_map_zero]
    simp [Spectrum.zero]
  · simp [hardResetDue, hkeep]

/-! ### Settled: zero weights under a zero error -/

theorem crossTerm_isZero {x ef : Spectrum} (hx : ∀ k : Fin 65, x[k].IsFinite) (hef : ef.IsZero) :
    (crossTerm x ef).IsZero := fun k => by
  rw [crossTerm_getElem]
  exact (hx k).conj.mul_isZero (hef k)

theorem constrain_isZero {g : Spectrum} (h : g.IsZero) : (constrain g).IsZero := by
  refine Num.fwdReal_isZero (Time.forall_of_halves (P := fun a => a.isZero = true) (fun n => ?_) fun n => ?_)
  · have hzero : (oldHalf (Num.invReal g) n).isZero = true := Num.invReal_isZero h ⟨n, by omega⟩
    rw [joinHalves_old]
    exact F32.isZero_mul (F32.isFinite_of_isZero hzero) (by decide) (.inl hzero)
  · rw [joinHalves_new]
    exact F32.zero_isZero

theorem adaptStep_isZero (unconstr : Bool) {x ef : Spectrum} (hx : ∀ k : Fin 65, x[k].IsFinite)
    (hef : ef.IsZero) : (adaptStep unconstr x ef).IsZero := by
  have hcross := crossTerm_isZero hx hef
  cases unconstr with
  | true => exact hcross
  | false => exact constrain_isZero hcross

theorem adaptBank_isZero (p : Params) {x : Inst} {ef : Spectrum} (hef : ef.IsZero)
    (hfar : ∀ i (k : Fin 65), (bankAt x.xfBuf i)[k].IsFinite) (hw : ∀ i, (bankAt x.wfBuf i).IsZero) (i : Nat) :
    (bankAt (adaptBank p x ef) i).IsZero := by
  by_cases hi : i < x.wfBuf.length
  · rw [bankAt_adaptBank p ef hi]
    intro k
    rw [addSpectra_getElem]
    exact (hw i k).add (adaptStep_isZero _ (hfar _) hef k)
  · rw [bankAt_of_le (by simpa using hi)]
    exact Spectrum.zero_isZero

/-- Settles O38: the cross term of zeros with finite numbers is zero, and the transforms keep it so (N1). -/
theorem zeroErrorKeepsZeroWeights : Obligations.ZeroErrorKeepsZeroWeights := by
  intro s hef hfar hw
  cases hen : s.cfg.adaptEn with
  | false => exact ⟨_, exec_bAdapt_off hen, hw⟩
  | true => exact ⟨_, exec_bAdapt_on hen, adaptBank_isZero s.cfg hef hfar hw⟩

end Sys2Proof.Machine
end

section
/-! PROOFS. No result depends on the kernel selector (O59). -/

namespace Sys2Proof.Machine

/-! ### What is read under either kernel -/

/-- The filter with the other kernel selected. -/
def Inst.withKernel (x : Inst) (k : Bool) : Inst := { x with kernelSel := k }

@[simp] theorem State.withKernel_inst (s : State) (k : Bool) : (s.withKernel k).inst = s.inst.withKernel k := rfl
@[simp] theorem State.withKernel_cfg (s : State) (k : Bool) : (s.withKernel k).cfg = s.cfg := rfl
@[simp] theorem State.withKernel_life (s : State) (k : Bool) : (s.withKernel k).life = s.life := rfl
@[simp] theorem State.withKernel_blk (s : State) (k : Bool) : (s.withKernel k).blk = s.blk := rfl
@[simp] theorem State.withKernel_mem (s : State) (k : Bool) : (s.withKernel k).mem = s.mem := rfl
@[simp] theorem State.withKernel_draws (s : State) (k : Bool) : (s.withKernel k).draws = s.draws := rfl
@[simp] theorem State.withKernel_winRead (s : State) (k : Bool) (w : Win) :
    (s.withKernel k).winRead w = s.winRead w := rfl
@[simp] theorem State.withKernel_farFrame (s : State) (k : Bool) : (s.withKernel k).farFrame = s.farFrame := rfl

@[simp] theorem Inst.withKernel_highBand (x : Inst) (k : Bool) : (x.withKernel k).highBand = x.highBand := rfl
@[simp] theorem Inst.withKernel_farFr (x : Inst) (k : Bool) : (x.withKernel k).farFr = x.farFr := rfl
@[simp] theorem Inst.withKernel_nearFr (x : Inst) (k : Bool) : (x.withKernel k).nearFr = x.nearFr := rfl
@[simp] theorem Inst.withKernel_nearFrH (x : Inst) (k : Bool) : (x.withKernel k).nearFrH = x.nearFrH := rfl
@[simp] theorem Inst.withKernel_outFr (x : Inst) (k : Bool) : (x.withKernel k).outFr = x.outFr := rfl
@[simp] theorem Inst.withKernel_outFrH (x : Inst) (k : Bool) : (x.withKernel k).outFrH = x.outFrH := rfl
@[simp] theorem Inst.withKernel_farlevel (x : Inst) (k : Bool) : (x.withKernel k).farlevel = x.farlevel := rfl
@[simp] theorem Inst.withKernel_stateCounter (x : Inst) (k : Bool) :
    (x.withKernel k).stateCounter = x.stateCounter := rfl
@[simp] theorem Inst.withKernel_metricsMode (x : Inst) (k : Bool) :
    (x.withKernel k).metricsMode = x.metricsMode := rfl
@[simp] theorem highBandBlock_withKernel (p : Params) (x : Inst) (k : Bool) (b : Blk) :
    highBandBlock p (x.withKernel k) b = highBandBlock p x b := rfl
@[simp] theorem metricsWords_withKernel (draw : Nat) (x : Inst) (k : Bool) :
    metricsWords draw (x.withKernel k) = metricsWords draw x := rfl

theorem Inst.updateStats_withKernel (p : Params) (x : Inst) (k : Bool) :
    (x.withKernel k).updateStats p = (x.updateStats p).withKernel k := by
  unfold Inst.updateStats
  rw [Inst.withKernel_farlevel, Inst.withKernel_stateCounter]
  split
  · rfl
  · rfl

/-- The trackers and the echo counter after a block, before the window test (spec/45_metrics.md R290). -/
def Inst.trackLevels (b : Blk) (x : Inst) : Inst :=
  { x with
    farlevel := (x.farlevel.update b.farBl).1
    nearlevel := (x.nearlevel.update b.nearBl).1
    linoutlevel := (x.linoutlevel.update b.eSat).1
    nlpoutlevel := (x.nlpoutlevel.update b.outBl).1
    stateCounter := if x.echoState then x.stateCounter + 1 else x.stateCounter }

theorem Inst.measure_eq_ite (p : Params) (b : Blk) (x : Inst) :
    x.measure p b =
      if (x.farlevel.update b.farBl).2 then { (x.trackLevels b).updateStats p with stateCounter := 0 }
      else x.trackLevels b := rfl

theorem Inst.trackLevels_withKernel (b : Blk) (x : Inst) (k : Bool) :
    (x.withKernel k).trackLevels b = (x.trackLevels b).withKernel k := rfl

theorem Inst.measure_withKernel (p : Params) (b : Blk) (x : Inst) (k : Bool) :
    (x.withKernel k).measure p b = (x.measure p b).withKernel k := by
  rw [Inst.measure_eq_ite, Inst.measure_eq_ite, Inst.withKernel_farlevel, Inst.trackLevels_withKernel,
    Inst.updateStats_withKernel]
  split
  · rfl
  · rfl

/-! ### Operations with one outcome or another -/

/-- An operation whose outcome under the other kernel is its outcome, but for the selector. -/
def IgnoresKernel (f : State → Host.Outcome State Fault Refusal) : Prop :=
  ∀ (s : State) (k : Bool), f (s.withKernel k) = mapNext (fun t => t.withKernel k) (f s)

theorem execProcessFrame_ignoresKernel (hb : Bool) (d : Int) : IgnoresKernel (execProcessFrame hb d) := by
  intro s k
  unfold execProcessFrame
  rw [State.withKernel_life, State.withKernel_inst, Inst.withKernel_highBand]
  split_ifs
  all_goals rfl

theorem execSetMetrics_ignoresKernel (enable : Bool) : IgnoresKernel (execSetMetrics enable) := by
  intro s k
  unfold execSetMetrics
  rw [State.withKernel_life]
  split
  · cases enable with
    | false => rfl
    | true => rfl
  · rfl

theorem complete_setMem_withKernel (s : State) (m : Memory) (k : Bool) :
    complete ((s.withKernel k).setMem m).drawn = (complete (s.setMem m).drawn).withKernel k := rfl

theorem execGetMetrics_ignoresKernel : IgnoresKernel execGetMetrics := by
  intro s k
  unfold execGetMetrics
  rw [State.withKernel_life, State.withKernel_inst, State.withKernel_mem, State.withKernel_draws,
    metricsWords_withKernel]
  split
  · exact congrArg Host.Outcome.next (complete_setMem_withKernel s _ k)
  · rfl

theorem exec_fBufferFar_ignoresKernel : IgnoresKernel (exec .fBufferFar) := by
  intro s k
  simp only [exec_fBufferFar, State.withKernel_farFrame, mapNext]
  simp only [State.withKernel, State.setInst]

theorem execFEnqueue_ignoresKernel : IgnoresKernel execFEnqueue := by
  intro s k
  unfold execFEnqueue
  rw [State.withKernel_inst, State.withKernel_blk, State.withKernel_winRead, State.withKernel_winRead,
    Inst.withKernel_farFr, Inst.withKernel_nearFr, Inst.withKernel_nearFrH, Inst.withKernel_highBand]
  dsimp only
  split
  · rfl
  · rfl

theorem execBPop_ignoresKernel : IgnoresKernel execBPop := by
  intro s k
  unfold execBPop
  rw [State.withKernel_inst, State.withKernel_blk, Inst.withKernel_farFr, Inst.withKernel_nearFr,
    Inst.withKernel_nearFrH, Inst.withKernel_highBand]
  dsimp only
  split
  · rfl
  · rfl

theorem exec_bNoise_ignoresKernel : IgnoresKernel (exec .bNoise) := by
  intro s k
  rw [exec_bNoise, exec_bNoise]
  rfl

/-- The tail that N_SYNTH leaves: the elements below a NaN of the output are the new ones (log 18). -/
def keptTail (o tail old : Half) : Half :=
  Vector.ofFn fun n : Fin 64 => if n.val < firstNaN o then tail[n] else old[n]

/-- The end of N_SYNTH, with the values to be saturated and the tail left. -/
def endSynth (o tail : Half) (s : State) : State :=
  if firstNaN o < 64 then raise .numeric (s.setInst { s.inst with outBuf := tail })
  else { s.setInst { s.inst with outBuf := tail } with blk := { s.blk with outBl := saturated o }, seq := 26 }

theorem exec_nSynth (s : State) :
    exec .nSynth s = .next (endSynth (synthBlock s.cfg.win (Num.invReal s.blk.efw) s.inst.outBuf)
      (keptTail (synthBlock s.cfg.win (Num.invReal s.blk.efw) s.inst.outBuf)
        (synthTail s.cfg.win (Num.invReal s.blk.efw)) s.inst.outBuf) s) := rfl

theorem endSynth_withKernel (o tail : Half) (s : State) (k : Bool) :
    endSynth o tail (s.withKernel k) = (endSynth o tail s).withKernel k := by
  unfold endSynth
  split
  · rfl
  · rfl

theorem exec_nSynth_ignoresKernel : IgnoresKernel (exec .nSynth) := by
  intro s k
  rw [exec_nSynth, exec_nSynth]
  exact congrArg Host.Outcome.next (endSynth_withKernel _ _ s k)

theorem execNHighband_ignoresKernel : IgnoresKernel execNHighband := by
  intro s k
  unfold execNHighband
  rw [State.withKernel_inst, State.withKernel_blk, State.withKernel_cfg, Inst.withKernel_highBand,
    highBandBlock_withKernel]
  dsimp only
  split_ifs
  all_goals rfl

theorem execMUpdate_ignoresKernel : IgnoresKernel execMUpdate := by
  intro s k
  unfold execMUpdate
  rw [State.withKernel_inst, State.withKernel_blk, State.withKernel_cfg, Inst.withKernel_metricsMode,
    Inst.measure_withKernel]
  split
  · rfl
  · rfl

theorem execBPush_ignoresKernel : IgnoresKernel execBPush := by
  intro s k
  unfold execBPush
  rw [State.withKernel_inst, State.withKernel_blk, Inst.withKernel_outFr, Inst.withKernel_outFrH,
    Inst.withKernel_highBand]
  dsimp only
  split
  · rfl
  · rfl

theorem execFStuff_ignoresKernel : IgnoresKernel execFStuff := by
  intro s k
  unfold execFStuff
  rw [State.withKernel_inst, Inst.withKernel_outFr, Inst.withKernel_outFrH, Inst.withKernel_highBand]
  dsimp only
  split
  · rfl
  · rfl

theorem execFPopOut_ignoresKernel : IgnoresKernel execFPopOut := by
  intro s k
  unfold execFPopOut
  rw [State.withKernel_inst, State.withKernel_mem, Inst.withKernel_outFr, Inst.withKernel_outFrH,
    Inst.withKernel_highBand]
  dsimp only
  split
  · rfl
  · rfl

/-- Settles O59: no operation reads the selector, and only CREATE, INIT and DESTROY write it. -/
theorem kernelSelectorNoEffect : Obligations.KernelSelectorNoEffect := by
  intro i s k hcreate hdestroy hinit
  cases i with
  | create => exact absurd rfl hcreate
  | destroy => exact absurd rfl hdestroy
  | init rate => exact absurd rfl (hinit rate)
  | processFrame hb d => exact execProcessFrame_ignoresKernel hb d s k
  | setMetrics enable => exact execSetMetrics_ignoresKernel enable s k
  | getMetrics => exact execGetMetrics_ignoresKernel s k
  | fBufferFar => exact exec_fBufferFar_ignoresKernel s k
  | fEnqueue => exact execFEnqueue_ignoresKernel s k
  | bPop => exact execBPop_ignoresKernel s k
  | bNoise => exact exec_bNoise_ignoresKernel s k
  | nSynth => exact exec_nSynth_ignoresKernel s k
  | nHighband => exact execNHighband_ignoresKernel s k
  | mUpdate => exact execMUpdate_ignoresKernel s k
  | bPush => exact execBPush_ignoresKernel s k
  | fStuff => exact execFStuff_ignoresKernel s k
  | fPopOut => exact execFPopOut_ignoresKernel s k
  | _ => rfl

end Sys2Proof.Machine
end

section
/-! PROOFS. The numbers of [0, 1], the preferred band of a bin array as a list, and its order statistics
(spec/00_scope.md R11, R17 N3; spec/42_suppressor.md R198, R206). -/

namespace Sys2Proof

/-! ### Comparisons that fail -/

/-- A comparison fails against a NaN or a value that is not less. -/
theorem F32.lt_eq_false {a b : F32} :
    a.lt b = false ↔ (a.isNaN = false → b.isNaN = false → b.key ≤ a.key) := by
  simp [F32.lt]

/-- What lies above a bound that another value does not exceed is not at most that value. -/
theorem F32.le_eq_false_of_gt {a b c : F32} (hab : a.gt b = true) (hcb : c.gt b = false) :
    a.le c = false := by
  obtain ⟨⟨hb, -⟩, hlt⟩ := F32.lt_eq_true.1 hab
  refine Bool.eq_false_iff.2 fun hac => ?_
  obtain ⟨⟨-, hc⟩, hle⟩ := F32.le_eq_true.1 hac
  have hcle := F32.lt_eq_false.1 hcb hb hc
  omega

/-- What does not exceed a bound does not exceed a value above the bound. -/
theorem F32.gt_eq_false_of_gt {a b c : F32} (hab : a.gt b = true) (hcb : c.gt b = false) :
    c.gt a = false := by
  refine Bool.eq_false_iff.2 fun hca => ?_
  have hac := F32.le_eq_false_of_gt hab hcb
  rw [F32.le_of_lt hca] at hac
  exact Bool.noConfusion hac

theorem F32.gt_trans {a b c : F32} (hab : a.gt b = true) (hbc : b.gt c = true) : a.gt c = true := by
  obtain ⟨⟨-, ha⟩, hlt⟩ := F32.lt_eq_true.1 hab
  obtain ⟨⟨hc, -⟩, hlt'⟩ := F32.lt_eq_true.1 hbc
  exact F32.lt_eq_true.2 ⟨⟨hc, ha⟩, Int.lt_trans hlt' hlt⟩

/-- Without a NaN between them, the order by `<` alone is transitive. -/
theorem F32.lt_eq_false_trans {a b c : F32} (hb : b.isNaN = false) (hab : b.lt a = false) (hbc : c.lt b = false) :
    c.lt a = false :=
  F32.lt_eq_false.2 fun hc ha =>
    Int.le_trans (F32.lt_eq_false.1 hab hb ha) (F32.lt_eq_false.1 hbc hc hb)

theorem F32.gt_self (a : F32) : a.gt a = false :=
  F32.lt_eq_false.2 fun _ _ => Int.le_refl _

/-! ### The numbers of [0, 1] -/

theorem F32.inUnit_eq_true {a : F32} : a.inUnit = true ↔ F32.zero.le a = true ∧ a.le Lit.one = true := by
  simp [F32.inUnit]

theorem F32.isNaN_of_inUnit {a : F32} (h : a.inUnit = true) : a.isNaN = false := by
  obtain ⟨hlow, -⟩ := F32.inUnit_eq_true.1 h
  obtain ⟨⟨-, hnan⟩, -⟩ := F32.le_eq_true.1 hlow
  exact hnan

theorem Lit.one_inUnit : Lit.one.inUnit = true := by decide

theorem F32.zeroOf_inUnit (s : Bool) : (F32.zeroOf s).inUnit = true := by
  cases s with
  | false => decide
  | true => decide

/-- N3: a base of [0, 1] stays there under a positive exponent. -/
theorem Num.pow_inUnit {x y : F32} (hx : x.inUnit = true) (hy : y.gt F32.zero = true) :
    (Num.pow x y).inUnit = true := by
  simp only [Num.pow, hx, hy, Bool.and_self, if_true]
  split_ifs with hone hzero hunit
  · exact Lit.one_inUnit
  · exact F32.zeroOf_inUnit _
  · exact hunit
  · exact Lit.one_inUnit

/-! ### A band of a bin array -/

theorem sumRange_eq_foldl_map (lo n : Nat) (f : Nat → F32) :
    sumRange lo n f = ((List.range n).map fun i => f (lo + i)).foldl F32.add F32.zero := by
  rw [List.foldl_map]
  rfl

/-- Inside the 65 bins a band is a slice of the array. -/
theorem Bins.band_eq_slice (v : Bins) {lo n : Nat} (h : lo + n ≤ 65) :
    ((List.range n).map fun i => v.at (lo + i)) = (v.toList.drop lo).take n := by
  refine List.ext_getElem (by simp; omega) fun i hi _ => ?_
  have hin : i < n := by simpa using hi
  simp [Bins.at_lt v (lo + i) (by omega)]

theorem Bins.sumRange_at (v : Bins) {lo n : Nat} (h : lo + n ≤ 65) :
    sumRange lo n v.at = ((v.toList.drop lo).take n).foldl F32.add F32.zero := by
  rw [sumRange_eq_foldl_map, v.band_eq_slice h]

/-- The sum over all bins. -/
theorem Bins.sumRange_at_all (v : Bins) : sumRange 0 65 v.at = v.toList.foldl F32.add F32.zero := by
  rw [v.sumRange_at (Nat.le_refl _), List.drop_zero, List.take_of_length_le (by simp)]

/-- Legal parameters keep the preferred band of every rate in the 65 bins, and it is not empty (R8). -/
theorem Params.Legal.prefBand {p : Params} (h : p.Legal) (mult : Nat) :
    1 ≤ p.prefSize.get mult ∧ p.prefMin.get mult + p.prefSize.get mult ≤ 65 := by
  obtain ⟨h1, h2, -⟩ := h
  unfold PerMult.get
  split
  · exact h1
  · exact h2

namespace Machine

/-! ### Sorting by insertion (R206) -/

theorem insertSorted_perm (v : F32) (l : List F32) : (insertSorted v l).Perm (v :: l) := by
  induction l with
  | nil => exact .refl _
  | cons w t ih =>
    unfold insertSorted
    split
    · exact (ih.cons w).trans (.swap v w t)
    · exact .refl _

theorem sortBins_perm (l : List F32) : (sortBins l).Perm l := by
  induction l with
  | nil => exact .refl _
  | cons v t ih => exact (insertSorted_perm v (sortBins t)).trans (ih.cons v)

/-- In non-decreasing order, by `<` alone. -/
def NonDecreasing (l : List F32) : Prop := l.Pairwise fun a b => b.lt a = false

theorem insertSorted_nonDecreasing {v : F32} {l : List F32} (hnan : ∀ w ∈ l, w.isNaN = false)
    (hl : NonDecreasing l) : NonDecreasing (insertSorted v l) := by
  induction l with
  | nil => exact List.pairwise_singleton _ _
  | cons w t ih =>
    obtain ⟨hw, ht⟩ := List.pairwise_cons.1 hl
    obtain ⟨hwnan, htnan⟩ := List.forall_mem_cons.1 hnan
    unfold insertSorted
    split
    · next hwv =>
      have hvw : v.lt w = false := F32.gt_eq_false_of_gt hwv (F32.gt_self w)
      refine List.pairwise_cons.2 ⟨fun x hx => ?_, ih htnan ht⟩
      rcases List.mem_cons.1 ((insertSorted_perm v t).mem_iff.1 hx) with rfl | hx
      · exact hvw
      · exact hw x hx
    · next hwv =>
      have hwv : w.lt v = false := Bool.eq_false_iff.2 hwv
      refine List.pairwise_cons.2 ⟨List.forall_mem_cons.2 ⟨hwv, fun x hx => ?_⟩, hl⟩
      exact F32.lt_eq_false_trans hwnan hwv (hw x hx)

theorem sortBins_nonDecreasing {l : List F32} (hnan : ∀ v ∈ l, v.isNaN = false) :
    NonDecreasing (sortBins l) := by
  induction l with
  | nil => exact List.Pairwise.nil
  | cons v t ih =>
    obtain ⟨-, ht⟩ := List.forall_mem_cons.1 hnan
    exact insertSorted_nonDecreasing (fun w hw => ht w ((sortBins_perm t).mem_iff.1 hw)) (ih ht)

/-! ### The order statistics of a band (R206) -/

theorem sortedBand_length (lo n : Nat) (v : Bins) : (sortedBand lo n v).length = n := by
  simpa [sortedBand] using (sortBins_perm ((List.range n).map fun i => v.at (lo + i))).length_eq

theorem sortedBand_perm (v : Bins) {lo n : Nat} (h : lo + n ≤ 65) :
    (sortedBand lo n v).Perm ((v.toList.drop lo).take n) :=
  v.band_eq_slice h ▸ sortBins_perm _

theorem sortedBand_nonDecreasing {v : Bins} {lo n : Nat} (h : lo + n ≤ 65)
    (hnan : ∀ a ∈ v.toList, a.isNaN = false) : NonDecreasing (sortedBand lo n v) := by
  unfold sortedBand
  rw [v.band_eq_slice h]
  exact sortBins_nonDecreasing fun a ha => hnan a (List.mem_of_mem_drop (List.mem_of_mem_take ha))

theorem sortedBand_getElem? (lo : Nat) {n i : Nat} (v : Bins) (h : i < n) :
    (sortedBand lo n v)[i]? = some ((sortedBand lo n v).getD i F32.zero) := by
  have hi : i < (sortedBand lo n v).length := (sortedBand_length lo n v).symm ▸ h
  simp [hi]

theorem quantHi_lt {n : Nat} (h : 1 ≤ n) : quantHi n < n := by
  unfold quantHi
  omega

theorem quantLo_lt {n : Nat} (h : 1 ≤ n) : quantLo n < n := by
  unfold quantLo
  omega

end Machine

end Sys2Proof
end

section
/-! PROOFS. The stages of the suppressor, each with its whole result (O39 to O47). -/

namespace Sys2Proof.Machine

/-! ### Settled: N_DELAY_IDX -/

/-- Partition `b`, with the value `e` kept for it, after the first `m` partitions: none of them exceeds `e`, none
before `b` reaches it, and it is partition 0 with the starting value or a partition of positive energy. -/
structure BestOf (E : Nat → F32) (m b : Nat) (e : F32) : Prop where
  greatest : ∀ i, i < m → (E i).gt e = false
  first : ∀ i, i < b → e.le (E i) = false
  found : (b = 0 ∧ e = F32.zero) ∨ b < m ∧ e = E b ∧ e.gt F32.zero = true

theorem BestOf.start (E : Nat → F32) : BestOf E 0 0 F32.zero :=
  ⟨nofun, nofun, .inl ⟨rfl, rfl⟩⟩

theorem BestOf.keep {E : Nat → F32} {m b : Nat} {e : F32} (h : BestOf E m b e) (hm : (E m).gt e = false) :
    BestOf E (m + 1) b e where
  greatest i hi := (Nat.lt_succ_iff_lt_or_eq.1 hi).elim (h.greatest i) fun hi => hi ▸ hm
  first := h.first
  found := h.found.imp_right fun ⟨hlt, hrest⟩ => ⟨Nat.lt_succ_of_lt hlt, hrest⟩

theorem BestOf.replace {E : Nat → F32} {m b : Nat} {e : F32} (h : BestOf E m b e) (hm : (E m).gt e = true) :
    BestOf E (m + 1) m (E m) where
  greatest i hi := (Nat.lt_succ_iff_lt_or_eq.1 hi).elim
    (fun hi => F32.gt_eq_false_of_gt hm (h.greatest i hi)) fun hi => hi ▸ F32.gt_self _
  first i hi := F32.le_eq_false_of_gt hm (h.greatest i hi)
  found := by
    refine .inr ⟨Nat.lt_succ_self m, rfl, ?_⟩
    rcases h.found with ⟨-, rfl⟩ | ⟨-, -, hpos⟩
    · exact hm
    · exact F32.gt_trans hm hpos

theorem bestOf_foldl (E : Nat → F32) (m : Nat) :
    let best := (List.range m).foldl (fun best i => if (E i).gt best.2 then (i, E i) else best) (0, F32.zero)
    BestOf E m best.1 best.2 := by
  induction m with
  | zero => exact .start E
  | succ m ih =>
    rw [List.range_succ, List.foldl_concat]
    split
    · next h => exact ih.replace h
    · next h => exact ih.keep (Bool.eq_false_iff.2 h)

/-- The scan of R190 ends at a best partition. -/
theorem bestPartition_bestOf (n : Nat) (wfBuf : List Spectrum) :
    ∃ e, BestOf (fun i => energy (bankAt wfBuf i)) n (bestPartition n wfBuf) e :=
  ⟨_, bestOf_foldl (fun i => energy (bankAt wfBuf i)) n⟩

theorem energy_eq_foldl (w : Spectrum) : energy w = (List.range 65).foldl
    (fun acc k => acc.add (((w.at k).re.mul (w.at k).re).add ((w.at k).im.mul (w.at k).im))) F32.zero := by
  simp only [energy, sumRange, Nat.zero_add, C32.mag2]

/-- Settles O39: the scan keeps the first of the greatest energies so far. -/
theorem nDelayIdxResult : Obligations.NDelayIdxResult := by
  intro s
  refine ⟨_, rfl, ?_, rfl, fun _ => rfl⟩
  obtain ⟨e, hgreatest, hfirst, hfound⟩ := bestPartition_bestOf s.cfg.nrPart s.inst.wfBuf
  simp only [← energy_eq_foldl]
  refine ⟨fun h => if_neg h, fun h => ?_, fun h hpos => ?_, fun h hnone => ?_⟩
  · rw [if_pos h]
    exact bestPartition_lt s.cfg.nrPart_pos _
  · rw [if_pos h]
    rcases hfound with ⟨-, rfl⟩ | ⟨-, rfl, hgt⟩
    · obtain ⟨i, hi, hgt⟩ := hpos
      exact absurd hgt (Bool.eq_false_iff.1 (hgreatest i hi))
    · exact ⟨hgt, hgreatest, hfirst⟩
  · rw [if_pos h]
    rcases hfound with ⟨hstart, -⟩ | ⟨hlt, rfl, hgt⟩
    · exact hstart
    · exact absurd hgt (Bool.eq_false_iff.1 (hnone _ hlt))

/-! ### Settled: N_WINDOW -/

/-- Settles O40: a windowed history is its two halves, and slot 0 of the bank takes the far spectrum. -/
theorem nWindowResult : Obligations.NWindowResult := by
  intro s hlen
  have hslot : 0 < s.inst.xfwBuf.length := hlen ▸ s.cfg.nrPart_pos
  refine ⟨_, rfl, fun fx fd fe h => ?_, fun p hp => bankAt_set_ne _ hp.symm _, List.length_set.trans hlen,
    rfl, rfl, fun _ => rfl⟩
  have hfx : fx = windowed s.cfg.win s.inst.xBuf := Time.eq_joinHalves fun n => by
    obtain ⟨hold, hnew, -⟩ := h n
    exact ⟨hold, hnew⟩
  have hfd : fd = windowed s.cfg.win s.inst.dBuf := Time.eq_joinHalves fun n => by
    obtain ⟨-, -, hold, hnew, -⟩ := h n
    exact ⟨hold, hnew⟩
  have hfe : fe = windowed s.cfg.win s.inst.eBuf := Time.eq_joinHalves fun n => by
    obtain ⟨-, -, -, -, hold, hnew⟩ := h n
    exact ⟨hold, hnew⟩
  rw [hfx, hfd, hfe]
  exact ⟨bankAt_set_self hslot _, rfl, rfl⟩

/-! ### Settled: N_PSD -/

/-- Settles O41: the smoothing is taken bin by bin, and the sums run over the smoothed powers. -/
theorem nPsdResult : Obligations.NPsdResult := by
  intro s
  have hbin {α : Type} (f : Fin 65 → α) (k : Fin 65) : (Vector.ofFn f)[k] = f k := Vector.getElem_ofFn k.isLt
  exact ⟨_, rfl, fun k => ⟨hbin _ k, hbin _ k, hbin _ k, hbin _ k, hbin _ k⟩,
    Bins.sumRange_at_all _, Bins.sumRange_at_all _, rfl, fun _ => rfl⟩

/-! ### Settled: N_COHERENCE -/

/-- Settles O42: the model's coherence, taken bin by bin. -/
theorem nCoherenceResult : Obligations.NCoherenceResult := by
  intro s
  exact ⟨_, rfl, fun k => ⟨Vector.getElem_ofFn k.isLt, Vector.getElem_ofFn k.isLt⟩, rfl, fun _ => rfl⟩

/-! ### Settled: N_CLASSIFY -/

theorem bandMean_eq (v : Bins) {lo n : Nat} (h : lo + n ≤ 65) :
    bandMean lo n v = (((v.toList.drop lo).take n).foldl F32.add F32.zero).div (F32.ofInt n) := by
  rw [bandMean, v.sumRange_at h]

theorem lowerXdMin_eq (thXdMin xdAvg xdAvgMin : F32) :
    lowerXdMin thXdMin xdAvg xdAvgMin =
      if xdAvg.lt thXdMin = true ∧ xdAvg.lt xdAvgMin = true then xdAvg else xdAvgMin := by
  simp only [lowerXdMin, Bool.and_eq_true]

theorem nearFlag_eq (p : Params) (flag : Bool) (deAvg xdAvg : F32) :
    nearFlag p flag deAvg xdAvg =
      if deAvg.gt p.thNearDeOn = true ∧ xdAvg.gt p.thNearXdOn = true then true
      else if deAvg.lt p.thNearDeOff = true ∨ xdAvg.lt p.thNearXdOff = true then false else flag := by
  simp only [nearFlag, Bool.and_eq_true, Bool.or_eq_true]

/-- Settles O43: legal parameters put the band inside the 65 bins, where the model's sum is that of the slice. -/
theorem nClassifyResult : Obligations.NClassifyResult := by
  intro s hlegal
  obtain ⟨-, hband⟩ := hlegal.prefBand s.inst.mult
  exact ⟨_, rfl, ⟨bandMean_eq _ hband, congrArg Lit.one.sub (bandMean_eq _ hband)⟩, lowerXdMin_eq _ _ _,
    nearFlag_eq _ _ _ _, rfl, fun _ => rfl⟩

/-! ### Settled: N_GAIN -/

/-- R206 (a) as a chain: the near end decides first, then the quiet far end. -/
theorem gainMode_eq (quiet near : Bool) :
    gainMode quiet near = if near = true then .de else if quiet = true then .xd else .min := by
  cases near with
  | false => rfl
  | true => exact ite_self _

theorem echoFlag_gainMode (quiet near : Bool) : echoFlag (gainMode quiet near) = (!quiet && !near) := by
  rw [gainMode_eq]
  cases near with
  | true => exact (Bool.and_false _).symm
  | false => cases quiet <;> rfl

theorem gainBin_eq (quiet near : Bool) (cohde cohxd : F32) :
    gainBin (gainMode quiet near) cohde cohxd = clampUnit (if near = true then cohde
      else if quiet = true then Lit.one.sub cohxd else cohde.min (Lit.one.sub cohxd)) := by
  rw [gainMode_eq]
  cases near with
  | true => rfl
  | false =>
    cases quiet with
    | true => rfl
    | false => rfl

theorem clampUnit_inUnit (h : F32) : (clampUnit h).inUnit = true := by
  have hlow : F32.zero.le (h.max F32.zero) = true := F32.le_max_right h (by decide)
  refine F32.inUnit_eq_true.2 ⟨?_, F32.min_le_right _ Lit.one_le_one⟩
  unfold clampUnit F32.min
  split
  · exact hlow
  · exact Lit.zero_le_one

theorem gainBin_inUnit (m : GainMode) (cohde cohxd : F32) : (gainBin m cohde cohxd).inUnit = true :=
  clampUnit_inUnit _

/-- The gain mode of the block in hand (R206 (a)). -/
def State.mode (s : State) : GainMode := gainMode (s.inst.hNlXdAvgMin.eq Lit.one) s.inst.stNearState

/-- The gains of the block in hand (R206 (a), (b)). -/
def State.gains (s : State) : Bins :=
  Vector.ofFn fun k : Fin 65 => gainBin s.mode s.blk.cohde[k] s.blk.cohxd[k]

theorem State.gains_getElem (s : State) (k : Fin 65) :
    s.gains[k] = gainBin s.mode s.blk.cohde[k] s.blk.cohxd[k] := Vector.getElem_ofFn k.isLt

theorem State.gains_inUnit (s : State) (k : Fin 65) : s.gains[k].inUnit = true := by
  rw [s.gains_getElem]
  exact gainBin_inUnit _ _ _

theorem State.isNaN_of_mem_gains {s : State} {v : F32} (h : v ∈ s.gains.toList) : v.isNaN = false := by
  obtain ⟨k, hk, rfl⟩ := Vector.getElem_of_mem (Vector.mem_toList_iff.1 h)
  exact F32.isNaN_of_inUnit (s.gains_inUnit ⟨k, hk⟩)

/-- The preferred band of the block's gains, sorted (R206 (c)). -/
def State.gainBand (s : State) : List F32 :=
  sortedBand (s.cfg.prefMin.get s.inst.mult) (s.cfg.prefSize.get s.inst.mult) s.gains

/-- The feedback scalar of a mode: a band average, or the order statistic (R206 (c)). -/
def GainMode.feedback (m : GainMode) (deAvg xdAvg quantile : F32) : F32 :=
  match m with
  | .de => deAvg
  | .xd => xdAvg
  | .min => quantile

theorem State.mode_feedback (s : State) (deAvg xdAvg quantile : F32) :
    s.mode.feedback deAvg xdAvg quantile = if s.inst.stNearState = true then deAvg
      else if s.inst.hNlXdAvgMin.eq Lit.one = true then xdAvg else quantile := by
  rw [State.mode, gainMode_eq, apply_ite (GainMode.feedback · deAvg xdAvg quantile),
    apply_ite (GainMode.feedback · deAvg xdAvg quantile)]
  rfl

theorem exec_nGain (s : State) :
    exec .nGain s = .next { s with
      inst := { s.inst with
        echoState := echoFlag s.mode
        overDrive := if s.inst.hNlXdAvgMin.eq Lit.one then s.inst.minOverDrive else s.inst.overDrive }
      blk := { s.blk with
        hNl := s.gains
        hNlFb := s.mode.feedback s.blk.hNlDeAvg s.blk.hNlXdAvg
          (s.gainBand.getD (quantHi (s.cfg.prefSize.get s.inst.mult)) F32.zero)
        hNlFbLow := s.mode.feedback s.blk.hNlDeAvg s.blk.hNlXdAvg
          (s.gainBand.getD (quantLo (s.cfg.prefSize.get s.inst.mult)) F32.zero) }
      seq := 22 } := rfl

/-- Settles O44: the gains are clamped, so the preferred band holds no NaN and its sorting is an order. -/
theorem nGainResult : Obligations.NGainResult := by
  intro s hlegal
  obtain ⟨hsize, hband⟩ := hlegal.prefBand s.inst.mult
  refine ⟨_, exec_nGain s, ⟨fun k => ?_, echoFlag_gainMode _ _, rfl, fun hnear => ?_, fun hnear hquiet => ?_,
    fun hnear hquiet => ?_⟩, rfl, fun _ => rfl⟩
  · exact (s.gains_getElem k).trans (gainBin_eq _ _ _ _)
  · simp only [State.mode_feedback, hnear, if_true, and_self]
  · simp only [State.mode_feedback, hnear, hquiet, Bool.false_eq_true, if_true, if_false, and_self]
  · simp only [State.mode_feedback, hnear, hquiet, Bool.false_eq_true, if_false]
    exact ⟨s.gainBand, sortedBand_perm s.gains hband, sortedBand_length _ _ _,
      sortedBand_nonDecreasing hband fun _ => State.isNaN_of_mem_gains,
      sortedBand_getElem? _ _ (quantHi_lt hsize), sortedBand_getElem? _ _ (quantLo_lt hsize)⟩

/-! ### Settled: N_OVERDRIVE -/

theorem newMinimum_eq_true {p : Params} {fbLow localMin : F32} :
    newMinimum p fbLow localMin = true ↔ fbLow.lt p.thFbMin = true ∧ fbLow.lt localMin = true :=
  Bool.and_eq_true_iff

/-- R211 with both directions of the slow blend spelled out. -/
theorem smoothOverDrive_eq (slowOn : OdSlow) (od sm : F32) :
    smoothOverDrive slowOn od sm =
      if (slowOn = .decrease ∧ od.lt sm = true) ∨ (slowOn = .increase ∧ od.lt sm = false) then
        (Lit.c0_99.mul sm).add (Lit.c0_01.mul od)
      else (Lit.c0_9.mul sm).add (Lit.c0_1.mul od) := by
  cases slowOn with
  | decrease => simp [smoothOverDrive]
  | increase => simp [smoothOverDrive]

/-- The block in hand has a new local minimum (R208). -/
def State.newMin (s : State) : Bool := newMinimum s.cfg s.blk.hNlFbLow s.inst.hNlFbLocalMin

/-- The pending minimum after R208. -/
def State.fbMin (s : State) : F32 := if s.newMin then s.blk.hNlFbLow else s.inst.hNlFbMin

/-- The persistence count of R210 before its test: a new minimum restarts it at 1. -/
def State.minCtr (s : State) : Nat :=
  if s.newMin then 1 else if s.inst.hNlNewMin then s.inst.hNlMinCtr + 1 else s.inst.hNlMinCtr

/-- The pending minimum has persisted (R210). -/
def State.persisted (s : State) : Bool := decide (s.minCtr = NEW_MIN_PERSIST)

/-- The overdrive after R210. -/
def State.nextOverDrive (s : State) : F32 :=
  if s.persisted then overDriveFor s.inst.targetSupp s.fbMin s.inst.minOverDrive else s.inst.overDrive

/-- The model's count, reset by R208 and raised by R210, is the count of the block. -/
theorem State.minCtr_eq_add (s : State) :
    (if s.newMin then 0 else s.inst.hNlMinCtr) + (if s.newMin || s.inst.hNlNewMin then 1 else 0) = s.minCtr := by
  unfold State.minCtr
  cases s.newMin with
  | true => rfl
  | false => cases s.inst.hNlNewMin <;> rfl

theorem exec_nOverdrive (s : State) :
    exec .nOverdrive s = .next { s with
      inst := { s.inst with
        hNlFbLocalMin := riseMin (if s.newMin then s.blk.hNlFbLow else s.inst.hNlFbLocalMin)
          (s.cfg.riseFb.get s.inst.mult)
        hNlXdAvgMin := riseMin s.inst.hNlXdAvgMin (s.cfg.riseXd.get s.inst.mult)
        hNlFbMin := s.fbMin
        hNlNewMin := (s.newMin || s.inst.hNlNewMin) && !s.persisted
        hNlMinCtr := if s.persisted then 0 else s.minCtr
        overDrive := s.nextOverDrive
        overDriveSm := smoothOverDrive s.cfg.odSlowOn s.nextOverDrive s.inst.overDriveSm }
      seq := 23 } := by
  simp only [State.nextOverDrive, State.persisted, ← s.minCtr_eq_add]
  rfl

/-- Settles O46: the count of the block decides between the recomputation and the old overdrive. -/
theorem nOverdriveResult : Obligations.NOverdriveResult := by
  intro s
  refine ⟨_, exec_nOverdrive s, ?_⟩
  simp only [← newMinimum_eq_true]
  refine ⟨rfl, rfl, rfl, fun (hctr : s.minCtr = 2) => ?_, fun (hctr : s.minCtr ≠ 2) => ?_,
    smoothOverDrive_eq _ _ _, rfl, fun _ => rfl⟩
  · have hpersisted : s.persisted = true := decide_eq_true hctr
    exact ⟨by simp [hpersisted], if_pos hpersisted, if_pos hpersisted⟩
  · have hpending : s.persisted = false := decide_eq_false hctr
    refine ⟨?_, if_neg (Bool.eq_false_iff.1 hpending), if_neg (Bool.eq_false_iff.1 hpending)⟩
    rw [hpending, Bool.not_false, Bool.and_true]
    exact Bool.or_eq_true_iff

/-! ### Settled: N_SUPPRESS and the bounds of the gains -/

/-- Settles O47: the shaped gain is the one that scales the error bin. -/
theorem nSuppressResult : Obligations.NSuppressResult := by
  intro s
  exact ⟨_, rfl, fun k => ⟨Vector.getElem_ofFn k.isLt, Vector.getElem_ofFn k.isLt⟩, rfl, fun _ => rfl⟩

/-- Settles O45: the clamp bounds the gains of N_GAIN, property N3 of `pow` those of N_SUPPRESS. -/
theorem suppressionGainBounds : Obligations.SuppressionGainBounds := by
  intro s
  refine ⟨⟨_, rfl, s.gains_inUnit⟩, ⟨_, rfl, fun k hexp hblend => ?_⟩⟩
  have hunit : (blendGain s.cfg.weightCurve[k] s.blk.hNlFb s.blk.hNl[k]).inUnit = true := by
    unfold blendGain
    rcases hblend with ⟨hle, hin⟩ | ⟨hgt, hin⟩
    · rwa [hle]
    · rwa [hgt]
  simp only [Fin.getElem_fin, Vector.getElem_ofFn]
  exact Num.pow_inUnit hunit hexp

end Sys2Proof.Machine
end

section
/-! PROOFS. What the output stages are made of: saturated blocks, shifted histories, the aged bank of far spectra,
and the mean over the high-band range (spec/43_comfort_noise_output.md). -/

namespace Sys2Proof

/-- Legal parameters keep the high-band range in the 65 bins (spec/00_scope.md R8). -/
theorem Params.Legal.highBandRange {p : Params} (h : p.Legal) :
    p.hbAvgLo + (p.hbAvgHi + 1 - p.hbAvgLo) ≤ 65 := by
  obtain ⟨-, -, ⟨hle, hmax⟩, -⟩ := h
  omega

namespace Machine

/-! ### Saturation of an output block (spec/60_exceptions.md R318) -/

theorem firstNaN_lt_iff {o : Half} : firstNaN o < 64 ↔ ∃ n : Fin 64, o[n].isNaN = true := by
  have hmem : firstNaN o < o.toList.length ↔ ∃ v ∈ o.toList, v.isNaN = true := List.findIdx_lt_length
  rw [Vector.length_toList] at hmem
  rw [hmem]
  constructor
  · rintro ⟨v, hv, hnan⟩
    obtain ⟨n, hn, rfl⟩ := Vector.getElem_of_mem (Vector.mem_toList_iff.1 hv)
    exact ⟨⟨n, hn⟩, hnan⟩
  · rintro ⟨n, hnan⟩
    exact ⟨o[n], Vector.mem_toList_iff.2 (Vector.getElem_mem n.isLt), hnan⟩

theorem not_firstNaN_lt {o : Half} (h : ∀ n : Fin 64, o[n].isNaN = false) : ¬firstNaN o < 64 := by
  simpa [firstNaN_lt_iff] using h

theorem firstNaN_eq_iff {o : Half} {n : Fin 64} :
    firstNaN o = n ↔ o[n].isNaN = true ∧ ∀ m : Fin 64, m < n → o[m].isNaN = false := by
  have hn : n.val < o.toList.length := n.isLt.trans_eq Vector.length_toList.symm
  rw [firstNaN, List.findIdx_eq hn]
  simp only [Vector.getElem_toList]
  exact and_congr_right fun _ =>
    ⟨fun h m hm => h m hm, fun h m hm => h ⟨m, hm.trans n.isLt⟩ hm⟩

/-- Of a number the output sample is its saturation, not the value kept for a NaN. -/
theorem sat16_eq_saturated {o : Half} {n : Fin 64} (h : o[n].isNaN = false) :
    sat16 o[n] = some (saturated o)[n] := by
  have hsome := sat16_eq_errorSample h 0 0
  simp only [saturated, Fin.getElem_fin, Vector.getElem_ofFn] at hsome ⊢
  rw [hsome, Option.getD_some]

/-! ### Shifted histories and the aged bank (R244) -/

theorem shiftHalves_getElem (x : Time) (n : Fin 64) :
    (shiftHalves x)[n.val] = x[64 + n.val] ∧ (shiftHalves x)[64 + n.val] = x[64 + n.val] :=
  ⟨joinHalves_old (newHalf x) (newHalf x) n, joinHalves_new (newHalf x) (newHalf x) n⟩

theorem bankAt_ageBank_zero (b : List Spectrum) : bankAt (ageBank b) 0 = bankAt b 0 := by
  cases b with
  | nil => rfl
  | cons x t => rfl

theorem bankAt_ageBank_succ {b : List Spectrum} {j : Nat} (h : j + 1 < b.length) :
    bankAt (ageBank b) (j + 1) = bankAt b j := by
  cases b with
  | nil => cases h
  | cons x t =>
    have hj : j < (x :: t).dropLast.length := by simpa using h
    calc bankAt (ageBank (x :: t)) (j + 1)
        = bankAt (x :: t).dropLast j := rfl
      _ = bankAt (x :: t) j := by rw [bankAt_of_lt hj, List.getElem_dropLast, bankAt_of_lt]

/-! ### The mean over the high-band range (R236, R242) -/

theorem highBandMean_at {p : Params} (h : p.Legal) (v : Bins) :
    highBandMean p v.at =
      (((v.toList.drop p.hbAvgLo).take (p.hbAvgHi + 1 - p.hbAvgLo)).foldl F32.add F32.zero).div
        (F32.ofInt (p.hbAvgHi + 1 - p.hbAvgLo : Nat)) := by
  rw [highBandMean, v.sumRange_at h.highBandRange]

/-- Only the bins of the range enter the mean, so a function of them may be taken over the whole array first. -/
theorem highBandMean_map {p : Params} (h : p.Legal) (v : Bins) (f : F32 → F32) :
    (highBandMean p fun k => f (v.at k)) = highBandMean p (Bins.at (Vector.ofFn fun k : Fin 65 => f v[k])) := by
  have hrange := h.highBandRange
  have hband : ∀ i ∈ List.range (p.hbAvgHi + 1 - p.hbAvgLo),
      f (v.at (p.hbAvgLo + i)) = Bins.at (Vector.ofFn fun k : Fin 65 => f v[k]) (p.hbAvgLo + i) := fun i hi => by
    have hi := List.mem_range.1 hi
    have hbin : p.hbAvgLo + i < 65 := by omega
    simp [Bins.at_lt _ _ hbin]
  simp only [highBandMean, sumRange_eq_foldl_map, List.map_congr_left hband]

end Machine

end Sys2Proof
end

section
/-! PROOFS. Comfort noise and the output stages, each with its whole result (O48 to O51). -/

namespace Sys2Proof.Machine

/-! ### Settled: N_COMFORT -/

theorem Inst.noisePow_getElem (x : Inst) (k : Fin 65) :
    x.noisePow[k] = if x.noiseSel then x.dMinPow[k] else x.dInitMinPow[k] := by
  unfold Inst.noisePow
  split
  · rfl
  · rfl

theorem highNoiseOn_eq_true {p : Params} : highNoiseOn p = true ↔ p.cnEn = true ∧ p.hbCnEn = true :=
  Bool.and_eq_true_iff

theorem highBand_and_highNoiseOn {s : State} : (s.inst.highBand && highNoiseOn s.cfg) = true ↔
    s.inst.wide ∧ s.cfg.cnEn = true ∧ s.cfg.hbCnEn = true := by
  rw [Bool.and_eq_true_iff, Inst.highBand_eq_true, highNoiseOn_eq_true]

/-- R232 component by component: bin 0 has no noise, bin 64 no imaginary part. -/
theorem noiseBin_eq (seed : BitVec 32) (k : Nat) (scale : F32 → F32) (nz : F32) :
    noiseBin seed k scale nz =
      ⟨if k = 0 then F32.zero else scale (nz.mul (Num.cos (phase seed k))),
        if k = 0 ∨ k = 64 then F32.zero
        else scale ((F32.zero.sub nz).mul (Num.sin (phase seed k)))⟩ := by
  unfold noiseBin
  by_cases h : k = 0
  · simp only [h, if_true, true_or]
    rfl
  · simp only [h, if_false, false_or]

theorem addNoise_eq (seed : BitVec 32) (k : Nat) (noisePow h : F32) (ef : C32) :
    addNoise seed k noisePow h ef =
      ⟨ef.re.add ((noiseWeight h).mul (if k = 0 then F32.zero else noisePow.sqrt.mul (Num.cos (phase seed k)))),
        ef.im.add ((noiseWeight h).mul (if k = 0 ∨ k = 64 then F32.zero
          else (F32.zero.sub noisePow.sqrt).mul (Num.sin (phase seed k))))⟩ := by
  rw [addNoise, noiseBin_eq]

/-- The means of R236 over the arrays of all bins' noise levels and weights. -/
theorem highBandNoise_getElem {p : Params} (h : p.Legal) (x : Inst) (hNl : Bins) (k : Fin 65) :
    (highBandNoise p x hNl)[k] =
      noiseBin x.seed k
        ((highBandMean p (Bins.at (Vector.ofFn fun j : Fin 65 => noiseWeight hNl[j]))).mul ·)
        (highBandMean p (Bins.at (Vector.ofFn fun j : Fin 65 => x.noisePow[j].sqrt))) := by
  rw [← highBandMean_map h, ← highBandMean_map h]
  exact Vector.getElem_ofFn k.isLt

/-- Settles O48: each bin takes the model's noise; legal parameters make the two means of the high band those of the
slices. -/
theorem nComfortResult : Obligations.NComfortResult := by
  intro s hlegal
  refine ⟨_, rfl, ?_, rfl, fun _ => rfl⟩
  simp only [← Inst.noisePow_getElem, ← highBand_and_highNoiseOn]
  refine ⟨fun hoff => ?_, fun hon => ⟨if_pos hon, fun k => ?_⟩, fun hoff k => ?_, fun hon k => ?_⟩
  · simp only [hoff, Bool.false_eq_true, if_false, and_self]
  · simp only [hon, if_true]
    exact (Vector.getElem_ofFn k.isLt).trans (addNoise_eq _ _ _ _ _)
  · simp only [hoff]
    exact Vector.getElem_replicate k.isLt
  · simp only [hon, if_true]
    rw [highBandNoise_getElem hlegal, noiseBin_eq, highBandMean_at hlegal, highBandMean_at hlegal]
    rfl

/-! ### Settled: N_SYNTH -/

theorem synthBlock_getElem (win : Bins) (v : Time) (outBuf : Half) (n : Fin 64) :
    (synthBlock win v outBuf)[n] = ((v[n.val].mul Lit.ifftScale).mul win[n.val]).add outBuf[n] :=
  Vector.getElem_ofFn n.isLt

theorem synthTail_getElem (win : Bins) (v : Time) (n : Fin 64) :
    (synthTail win v)[n] = (v[64 + n.val].mul Lit.ifftScale).mul win[64 - n.val] :=
  Vector.getElem_ofFn n.isLt

theorem keptTail_getElem (o tail old : Half) (n : Fin 64) :
    (keptTail o tail old)[n] = if n.val < firstNaN o then tail[n] else old[n] :=
  Vector.getElem_ofFn n.isLt

theorem endSynth_numbers {o : Half} (h : ¬firstNaN o < 64) (tail : Half) (s : State) :
    endSynth o tail s = { s with
      inst := { s.inst with outBuf := tail }, blk := { s.blk with outBl := saturated o }, seq := 26 } :=
  if_neg h

theorem endSynth_nan {o : Half} (h : firstNaN o < 64) (tail : Half) (s : State) :
    endSynth o tail s = raise .numeric { s with inst := { s.inst with outBuf := tail } } :=
  if_pos h

/-- Settles O49: the first NaN ends the loop over the block; without one every tail element is written. -/
theorem nSynthResult : Obligations.NSynthResult := by
  intro s
  refine ⟨_, exec_nSynth s, ?_⟩
  simp only [← synthBlock_getElem, ← synthTail_getElem]
  generalize synthBlock s.cfg.win (Num.invReal s.blk.efw) s.inst.outBuf = o
  generalize synthTail s.cfg.win (Num.invReal s.blk.efw) = tail
  refine ⟨fun hnum => ?_, fun n hnan hbelow => ?_⟩
  · have hstop := not_firstNaN_lt hnum
    rw [endSynth_numbers hstop]
    refine ⟨fun n => ⟨sat16_eq_saturated (hnum n), ?_⟩, rfl, fun _ => rfl⟩
    have hn : n.val < firstNaN o := by omega
    exact (keptTail_getElem _ _ _ n).trans (if_pos hn)
  · have hstop : firstNaN o = n := firstNaN_eq_iff.2 ⟨hnan, hbelow⟩
    rw [endSynth_nan (hstop ▸ n.isLt)]
    refine ⟨fun m => ?_, rfl, fun _ => rfl⟩
    have hkept := keptTail_getElem o tail s.inst.outBuf m
    rw [hstop] at hkept
    exact hkept

/-! ### Settled: N_HIGHBAND -/

theorem exec_nHighband_narrow {s : State} (h : ¬s.inst.wide) :
    exec .nHighband s = .next { s with seq := 27 } :=
  congrArg Host.Outcome.next (if_neg (mt Inst.highBand_eq_true.1 h))

theorem exec_nHighband_numbers {s : State} (h : s.inst.wide)
    (hnum : ¬firstNaN (highBandBlock s.cfg s.inst s.blk) < 64) :
    exec .nHighband s = .next { s with
      blk := { s.blk with outBlH := saturated (highBandBlock s.cfg s.inst s.blk) }, seq := 27 } :=
  congrArg Host.Outcome.next ((if_pos (Inst.highBand_eq_true.2 h)).trans (if_neg hnum))

theorem exec_nHighband_nan {s : State} (h : s.inst.wide)
    (hnan : firstNaN (highBandBlock s.cfg s.inst s.blk) < 64) :
    exec .nHighband s = .next (raise .numeric s) :=
  congrArg Host.Outcome.next ((if_pos (Inst.highBand_eq_true.2 h)).trans (if_pos hnan))

theorem highBandBlock_getElem (p : Params) (x : Inst) (b : Blk) (n : Fin 64) :
    (highBandBlock p x b)[n] =
      if highNoiseOn p = true then
        (x.dBufH[n.val].mul (highBandMean p b.hNl.at)).add
          (p.cnScaleHband.mul ((Num.invReal b.cnH)[n.val].mul Lit.ifftScale))
      else x.dBufH[n.val].mul (highBandMean p b.hNl.at) :=
  Vector.getElem_ofFn n.isLt

/-- Settles O50: at 32000 Hz the block to be saturated holds a NaN or does not; legal parameters make the model's mean
that of the slice. -/
theorem nHighbandResult : Obligations.NHighbandResult := by
  intro s hlegal
  simp only [← highBandMean_at hlegal, ← highNoiseOn_eq_true, ← highBandBlock_getElem]
  by_cases hwide : s.inst.wide
  · by_cases hnan : ∃ n : Fin 64, (highBandBlock s.cfg s.inst s.blk)[n].isNaN = true
    · have hsome : ¬∀ n : Fin 64, (highBandBlock s.cfg s.inst s.blk)[n].isNaN = false := by simpa using hnan
      exact ⟨_, exec_nHighband_nan hwide (firstNaN_lt_iff.2 hnan), fun h => absurd hwide h,
        fun _ h => absurd h hsome, fun _ _ => ⟨rfl, fun _ => rfl⟩⟩
    · exact ⟨_, exec_nHighband_numbers hwide (mt firstNaN_lt_iff.1 hnan), fun h => absurd hwide h,
        fun _ hnum => ⟨fun n => sat16_eq_saturated (hnum n), rfl, fun _ => rfl⟩, fun _ h => absurd h hnan⟩
  · exact ⟨_, exec_nHighband_narrow hwide, fun _ => ⟨rfl, fun _ => rfl⟩, fun h => absurd h hwide,
      fun h => absurd h hwide⟩

/-! ### Settled: N_SHIFT -/

/-- Settles O51: every history takes its new half twice, every slot of the bank its predecessor's spectrum. -/
theorem nShiftResult : Obligations.NShiftResult := by
  intro s hlen
  refine ⟨_, rfl, fun n => ?_, fun hnarrow => if_neg (mt Inst.highBand_eq_true.1 hnarrow), bankAt_ageBank_zero _,
    fun j hj hlt => ?_, (ageBank_length _).trans hlen, rfl, fun _ => rfl⟩
  · obtain ⟨hxold, hxnew⟩ := shiftHalves_getElem s.inst.xBuf n
    obtain ⟨hdold, hdnew⟩ := shiftHalves_getElem s.inst.dBuf n
    obtain ⟨heold, henew⟩ := shiftHalves_getElem s.inst.eBuf n
    refine ⟨hxold, hxnew, hdold, hdnew, heold, henew, fun hwide => ?_⟩
    simp only [Inst.highBand_eq_true.2 hwide, if_true]
    exact shiftHalves_getElem s.inst.dBufH n
  · obtain ⟨i, rfl⟩ := Nat.exists_eq_add_of_le' hj
    exact bankAt_ageBank_succ (hlt.trans_eq hlen.symm)

end Sys2Proof.Machine
end

section
/-! PROOFS. The stages of the re-blocking frame interface, each with its whole result and its refusal (O22 to O27). -/

namespace Sys2Proof.Machine

/-! ### The ring buffers within their bounds (spec/20_memory.md R78) -/

theorem rbWrite_of_room {q vs : List Sample} {n : Nat} (hn : vs.length = n) (h : q.length + n ≤ RB_CAP) :
    rbWrite q vs = some (q ++ vs) := rbWrite_eq_some.2 ⟨hn ▸ h, rfl⟩

theorem room_of_rbWrite {q vs r : List Sample} {n : Nat} (hn : vs.length = n) (h : rbWrite q vs = some r) :
    q.length + n ≤ RB_CAP := hn ▸ (rbWrite_eq_some.1 h).1

theorem rbRead_of_enough {q : List Sample} {n : Nat} (h : n ≤ q.length) :
    rbRead q n = some (q.take n, q.drop n) := rbRead_eq_some.2 ⟨h, rfl⟩

theorem enough_of_rbRead {q : List Sample} {n : Nat} {r : List Sample × List Sample} (h : rbRead q n = some r) :
    n ≤ q.length := (rbRead_eq_some.1 h).1

theorem rbStuff_of_room {q : List Sample} {n : Nat} (h : q.length + n ≤ RB_CAP) :
    rbStuff q n = some (List.replicate n 0#16 ++ q) := rbStuff_eq_some.2 ⟨h, rfl⟩

/-- An operation on a high-band queue that succeeds wherever there is a high band. -/
theorem doneIf_highBand {α : Type} {x : Inst} {dflt y : α} {r : Option α} (h : x.wide → r = some y) :
    doneIf x.highBand dflt r = some (if x.wide then y else dflt) := by
  by_cases hwide : x.wide
  · rw [if_pos hwide, Inst.highBand_eq_true.2 hwide]
    exact h hwide
  · rw [if_neg hwide, Bool.eq_false_iff.2 (mt Inst.highBand_eq_true.1 hwide)]
    rfl

/-- What an operation on a high-band queue answers, where there is a high band. -/
theorem eq_some_of_doneIf_highBand {α : Type} {x : Inst} {dflt y : α} {r : Option α}
    (h : doneIf x.highBand dflt r = some y) (hwide : x.wide) : r = some y := by
  rwa [Inst.highBand_eq_true.2 hwide] at h

/-- Zeros are stuffed only where some are missing, and no zeros leave the queue as it is. -/
theorem doneIf_rbStuff {q : List Sample} {n : Nat} (h : 0 < n → q.length + n ≤ RB_CAP) :
    doneIf (decide (0 < n)) q (rbStuff q n) = some (List.replicate n 0#16 ++ q) := by
  by_cases hn : 0 < n
  · rw [decide_eq_true hn]
    exact rbStuff_of_room (h hn)
  · obtain rfl : n = 0 := by omega
    rfl

theorem doneIf_and {α : Type} (b c : Bool) (dflt : α) (r : Option α) :
    doneIf (b && c) dflt r = doneIf b dflt (doneIf c dflt r) := by
  cases b with
  | false => rfl
  | true => rfl

/-! ### Settled: F_ENQUEUE -/

/-- The samples of a window, in order. -/
def State.frameOf (s : State) (w : Win) : List Sample := List.ofFn fun j : Fin 80 => s.winRead w j

theorem State.frameOf_length (s : State) (w : Win) : (s.frameOf w).length = 80 := List.length_ofFn

theorem State.map_winRead_range (s : State) (w : Win) :
    (List.range FRAME_LEN).map (s.winRead w) = s.frameOf w := by
  unfold State.frameOf
  rw [List.ofFn_eq_map, ← List.map_coe_finRange_eq_range, List.map_map]
  rfl

/-- The input queues have room for a frame. -/
def Inst.RoomForFrame (x : Inst) : Prop :=
  x.farFr.length + 80 ≤ 144 ∧ x.nearFr.length + 80 ≤ 144 ∧ (x.wide → x.nearFrH.length + 80 ≤ 144)

theorem exec_fEnqueue_room {s : State} (h : s.inst.RoomForFrame) :
    exec .fEnqueue s = .next { s with
      inst := { s.inst with
        farFr := s.inst.farFr ++ s.blk.farFr80.toList
        nearFr := s.inst.nearFr ++ s.frameOf .nearIn
        nearFrH := if s.inst.wide then s.inst.nearFrH ++ s.frameOf .nearHIn else s.inst.nearFrH }
      seq := 4 } := by
  obtain ⟨hfar, hnear, hnearH⟩ := h
  show execFEnqueue s = _
  unfold execFEnqueue
  dsimp only
  rw [s.map_winRead_range, s.map_winRead_range, rbWrite_of_room Vector.length_toList hfar,
    rbWrite_of_room (s.frameOf_length _) hnear,
    doneIf_highBand fun hwide => rbWrite_of_room (s.frameOf_length _) (hnearH hwide)]

theorem exec_fEnqueue_refused {s : State} (h : ¬s.inst.RoomForFrame) :
    exec .fEnqueue s = .refused .ringOverflow := by
  show execFEnqueue s = _
  unfold execFEnqueue
  dsimp only
  rw [s.map_winRead_range, s.map_winRead_range]
  split
  · next hfar hnear hnearH =>
    exact absurd ⟨room_of_rbWrite Vector.length_toList hfar, room_of_rbWrite (s.frameOf_length _) hnear,
      fun hwide => room_of_rbWrite (s.frameOf_length _) (eq_some_of_doneIf_highBand hnearH hwide)⟩ h
  · rfl

/-- Settles O22: the step is refused exactly where a queue has no room. -/
theorem fEnqueueResult : Obligations.FEnqueueResult := fun _ =>
  ⟨fun h => ⟨_, exec_fEnqueue_room h, rfl, rfl, rfl, rfl, fun _ => rfl⟩, exec_fEnqueue_refused⟩

/-! ### Settled: F_BLOCK_TEST and IDLE -/

theorem exec_fBlockTest (s : State) :
    exec .fBlockTest s = .next { s with seq := if 64 ≤ s.inst.farFr.length then 5 else 30 } := rfl

/-- Settles O23: the test reads the far-end fill and writes SEQ alone. -/
theorem blockTestAndIdle : Obligations.BlockTestAndIdle := fun s =>
  ⟨⟨_, exec_fBlockTest s, rfl, fun _ => rfl⟩, rfl⟩

/-! ### Settled: B_POP -/

/-- The input queues hold a block. -/
def Inst.HoldsBlock (x : Inst) : Prop :=
  64 ≤ x.farFr.length ∧ 64 ≤ x.nearFr.length ∧ (x.wide → 64 ≤ x.nearFrH.length)

/-- The block at the read end of a queue. -/
theorem blockOf_take_getElem (q : List Sample) (k : Fin 64) : (blockOf (q.take 64))[k] = q.getD k 0#16 := by
  have htake : (q.take 64)[k.val]? = q[k.val]? := List.getElem?_take_of_lt k.isLt
  rw [Fin.getElem_fin, blockOf_getElem, List.getD_eq_getElem?_getD, htake, List.getD_eq_getElem?_getD]

theorem exec_bPop_enough {s : State} (h : s.inst.HoldsBlock) :
    exec .bPop s = .next { s with
      inst := { s.inst with
        farFr := s.inst.farFr.drop 64, nearFr := s.inst.nearFr.drop 64
        nearFrH := if s.inst.wide then s.inst.nearFrH.drop 64 else s.inst.nearFrH }
      blk := { s.blk with
        farBl := blockOf (s.inst.farFr.take 64), nearBl := blockOf (s.inst.nearFr.take 64)
        nearBlH := if s.inst.wide then blockOf (s.inst.nearFrH.take 64) else s.blk.nearBlH }
      seq := 6 } := by
  obtain ⟨hfar, hnear, hnearH⟩ := h
  show execBPop s = _
  unfold execBPop
  rw [rbRead_of_enough hfar, rbRead_of_enough hnear,
    doneIf_highBand fun hwide => rbRead_of_enough (hnearH hwide)]
  split_ifs
  · rfl
  · simp only [blockOf_toList]

theorem exec_bPop_refused {s : State} (h : ¬s.inst.HoldsBlock) :
    exec .bPop s = .refused .ringUnderflow := by
  show execBPop s = _
  unfold execBPop
  split
  · next hfar hnear hnearH =>
    exact absurd ⟨enough_of_rbRead hfar, enough_of_rbRead hnear,
      fun hwide => enough_of_rbRead (eq_some_of_doneIf_highBand hnearH hwide)⟩ h
  · rfl

/-- Settles O24: the step is refused exactly where a queue holds no block. -/
theorem bPopResult : Obligations.BPopResult := by
  intro s
  refine ⟨fun h => ⟨_, exec_bPop_enough h, fun k => ?_, rfl, fun _ => rfl⟩, exec_bPop_refused⟩
  refine ⟨blockOf_take_getElem _ k, blockOf_take_getElem _ k, ?_⟩
  dsimp only
  split
  · exact blockOf_take_getElem _ k
  · rfl

/-! ### Settled: B_PUSH -/

/-- The output queues have room for a block. -/
def Inst.RoomForBlock (x : Inst) : Prop :=
  x.outFr.length + 64 ≤ 144 ∧ (x.wide → x.outFrH.length + 64 ≤ 144)

theorem exec_bPush_room {s : State} (h : s.inst.RoomForBlock) :
    exec .bPush s = .next { s with
      inst := { s.inst with
        outFr := s.inst.outFr ++ s.blk.outBl.toList
        outFrH := if s.inst.wide then s.inst.outFrH ++ s.blk.outBlH.toList else s.inst.outFrH }
      seq := 4 } := by
  obtain ⟨hout, houtH⟩ := h
  show execBPush s = _
  unfold execBPush
  rw [rbWrite_of_room Vector.length_toList hout,
    doneIf_highBand fun hwide => rbWrite_of_room Vector.length_toList (houtH hwide)]

theorem exec_bPush_refused {s : State} (h : ¬s.inst.RoomForBlock) :
    exec .bPush s = .refused .ringOverflow := by
  show execBPush s = _
  unfold execBPush
  split
  · next hout houtH =>
    exact absurd ⟨room_of_rbWrite Vector.length_toList hout,
      fun hwide => room_of_rbWrite Vector.length_toList (eq_some_of_doneIf_highBand houtH hwide)⟩ h
  · rfl

/-- Settles O25: the step is refused exactly where a queue has no room. -/
theorem bPushResult : Obligations.BPushResult := fun _ =>
  ⟨fun h => ⟨_, exec_bPush_room h, rfl, fun _ => rfl⟩, exec_bPush_refused⟩

/-! ### Settled: F_STUFF -/

/-- The high band's output queue has room for the zeros that fill up the low band's. -/
def Inst.RoomForZeros (x : Inst) : Prop :=
  x.wide → x.outFr.length < 80 → x.outFrH.length + (80 - x.outFr.length) ≤ 144

theorem exec_fStuff_room {s : State} (h : s.inst.RoomForZeros) :
    exec .fStuff s = .next { s with
      inst := { s.inst with
        outFr := List.replicate (80 - s.inst.outFr.length) 0 ++ s.inst.outFr
        outFrH := if s.inst.wide then List.replicate (80 - s.inst.outFr.length) 0 ++ s.inst.outFrH
          else s.inst.outFrH }
      seq := 31 } := by
  have hout : 0 < 80 - s.inst.outFr.length → s.inst.outFr.length + (80 - s.inst.outFr.length) ≤ 144 := by omega
  have houtH (hwide : s.inst.wide) : 0 < 80 - s.inst.outFr.length →
      s.inst.outFrH.length + (80 - s.inst.outFr.length) ≤ 144 := fun hn => h hwide (by omega)
  show execFStuff s = _
  unfold execFStuff
  dsimp only [rbFill, FRAME_LEN]
  rw [doneIf_and, doneIf_rbStuff hout, doneIf_highBand fun hwide => doneIf_rbStuff (houtH hwide)]
  rfl

theorem exec_fStuff_refused {s : State} (h : ¬s.inst.RoomForZeros) :
    exec .fStuff s = .refused .ringOverflow := by
  show execFStuff s = _
  unfold execFStuff
  dsimp only
  split
  · next hout houtH =>
    refine absurd (fun hwide hlt => ?_) h
    have hn : 0 < FRAME_LEN - rbFill s.inst.outFr := Nat.sub_pos_of_lt hlt
    rw [doneIf_and, decide_eq_true hn] at houtH
    exact (rbStuff_eq_some.1 (eq_some_of_doneIf_highBand houtH hwide)).1
  · rfl

/-- Settles O26: the zeros for the low band always fit, those for the high band fit exactly where the step is not
refused. -/
theorem fStuffResult : Obligations.FStuffResult := by
  intro s
  refine ⟨fun h => ⟨_, exec_fStuff_room h, ?_, rfl, fun _ => rfl⟩, exec_fStuff_refused⟩
  simp only [List.length_append, List.length_replicate]
  omega

/-! ### A frame written to a window (spec/20_memory.md R72) -/

theorem sampleBytes_length_le {vs : List Sample} {e : List Byte} (he : e ∈ vs.map sampleBytes) : e.length ≤ 4 := by
  obtain ⟨v, -, rfl⟩ := List.mem_map.1 he
  simp [sampleBytes_length]

/-- Writing a frame touches the two bytes of each element's sample and no other byte. -/
theorem Memory.read_writeFrame_other (m : Memory) (w : Win) {vs : List Sample} {b : Nat}
    (hb : ∀ j < vs.length, b ≠ 4 * (w.base + j) ∧ b ≠ 4 * (w.base + j) + 1) :
    (m.writeFrame w vs).read b = m.read b := by
  by_cases hin : 4 * w.base ≤ b ∧ b < 4 * (w.base + vs.length)
  · obtain ⟨i, k, hk, rfl⟩ : ∃ i k, k < 4 ∧ b = 4 * (w.base + i) + k :=
      ⟨b / 4 - w.base, b % 4, by omega, by omega⟩
    have hi : i < vs.length := by omega
    have hk2 : 2 ≤ k := by have := hb i hi; omega
    have helem : (vs.map sampleBytes)[i]? = some (sampleBytes vs[i]) := by simp [hi]
    exact Memory.read_writeElems_gap m _ _ i k _ (fun e he => sampleBytes_length_le he) helem hk2 hk
  · exact Memory.read_writeFrame_outside m w hin

/-- Where the two bytes of an element are those of a written frame, the frame's sample reads back. -/
theorem State.winRead_of_frame {s : State} {m : Memory} {w : Win} {vs : List Sample} {j : Nat}
    (hread : ∀ k < 2, s.mem.read (4 * (w.base + j) + k) = (m.writeFrame w vs).read (4 * (w.base + j) + k))
    (hj : j < vs.length) : s.winRead w j = vs[j] := by
  have helem : (vs.map sampleBytes)[j]? = some (sampleBytes vs[j]) := by simp [hj]
  have hbyte (k : Nat) (hk : k < 2) : s.byteAt (4 * (w.base + j) + k) = (sampleBytes vs[j])[k] := by
    have hstored := Memory.read_writeElems_elem m w.base _ j k _ (fun e he => sampleBytes_length_le he) helem hk
    rw [State.byteAt, hread k hk, Memory.writeFrame, hstored, List.getElem?_eq_getElem hk, Option.getD_some]
  calc s.winRead w j
      = s.byteAt (4 * (w.base + j) + 1) ++ s.byteAt (4 * (w.base + j) + 0) := rfl
    _ = vs[j].extractLsb' 8 8 ++ vs[j].extractLsb' 0 8 := by
        rw [hbyte 1 (by decide), hbyte 0 (by decide)]
        rfl
    _ = vs[j] := sample_eq_append_bytes _

/-! ### Settled: F_POP_OUT -/

/-- The output queues hold a frame. -/
def Inst.HoldsFrame (x : Inst) : Prop := 80 ≤ x.outFr.length ∧ (x.wide → 80 ≤ x.outFrH.length)

/-- The memory after a frame has been written to OUT and, with a high band, one to OUTH. -/
def State.framesOut (s : State) : Memory :=
  if s.inst.wide then (s.mem.writeFrame .out (s.inst.outFr.take 80)).writeFrame .outH (s.inst.outFrH.take 80)
  else s.mem.writeFrame .out (s.inst.outFr.take 80)

theorem State.framesOut_wide {s : State} (h : s.inst.wide) : s.framesOut =
    (s.mem.writeFrame .out (s.inst.outFr.take 80)).writeFrame .outH (s.inst.outFrH.take 80) := if_pos h

theorem State.framesOut_narrow {s : State} (h : ¬s.inst.wide) :
    s.framesOut = s.mem.writeFrame .out (s.inst.outFr.take 80) := if_neg h

theorem exec_fPopOut_enough {s : State} (h : s.inst.HoldsFrame) :
    exec .fPopOut s = .next { s with
      inst := { s.inst with
        outFr := s.inst.outFr.drop 80
        outFrH := if s.inst.wide then s.inst.outFrH.drop 80 else s.inst.outFrH }
      mem := s.framesOut, done := true, seq := 0 } := by
  obtain ⟨hout, houtH⟩ := h
  show execFPopOut s = _
  unfold execFPopOut
  rw [rbRead_of_enough hout, doneIf_highBand fun hwide => rbRead_of_enough (houtH hwide)]
  by_cases hwide : s.inst.wide
  · simp only [if_pos hwide, Inst.highBand_eq_true.2 hwide, State.framesOut_wide hwide]
    rfl
  · simp only [if_neg hwide, mt Inst.highBand_eq_true.1 hwide, State.framesOut_narrow hwide]
    rfl

theorem exec_fPopOut_refused {s : State} (h : ¬s.inst.HoldsFrame) :
    exec .fPopOut s = .refused .ringUnderflow := by
  show execFPopOut s = _
  unfold execFPopOut
  split
  · next hout houtH =>
    exact absurd ⟨enough_of_rbRead hout,
      fun hwide => enough_of_rbRead (eq_some_of_doneIf_highBand houtH hwide)⟩ h
  · rfl

/-- OUT holds the frame popped from the low band's queue: what is written to OUTH lies elsewhere. -/
theorem State.winRead_out_of_framesOut {s t : State} (ht : t.mem = s.framesOut) (h : s.inst.HoldsFrame)
    (j : Fin 80) : t.winRead .out j = s.inst.outFr.getD j 0#16 := by
  obtain ⟨hout, houtH⟩ := h
  have hj : j.val < (s.inst.outFr.take 80).length := by simp; omega
  have hread (k : Nat) (hk : k < 2) : t.mem.read (4 * (Win.out.base + j) + k) =
      (s.mem.writeFrame .out (s.inst.outFr.take 80)).read (4 * (Win.out.base + j) + k) := by
    rw [ht]
    by_cases hwide : s.inst.wide
    · rw [State.framesOut_wide hwide]
      refine Memory.read_writeFrame_outside _ .outH ?_
      simp only [Win.base]
      omega
    · rw [State.framesOut_narrow hwide]
  rw [State.winRead_of_frame hread hj, List.getElem_take, List.getD_eq_getElem]

/-- At 32000 Hz OUTH holds the frame popped from the high band's queue. -/
theorem State.winRead_outH_of_framesOut {s t : State} (ht : t.mem = s.framesOut) (h : s.inst.HoldsFrame)
    (hwide : s.inst.wide) (j : Fin 80) : t.winRead .outH j = s.inst.outFrH.getD j 0#16 := by
  obtain ⟨-, houtH⟩ := h
  have hlen := houtH hwide
  have hj : j.val < (s.inst.outFrH.take 80).length := by simp; omega
  rw [State.framesOut_wide hwide] at ht
  rw [State.winRead_of_frame (fun k _ => by rw [ht]) hj, List.getElem_take, List.getD_eq_getElem]

/-- Of all byte addresses F_POP_OUT touches only those of the samples it writes. -/
theorem exec_fPopOut_byteAt_other {s : State} (h : s.inst.HoldsFrame) {t : State} (ht : exec .fPopOut s = .next t)
    {a : Nat} (hout : ∀ j < 80, a ≠ 4 * (0x400 + j) ∧ a ≠ 4 * (0x400 + j) + 1)
    (houtH : s.inst.wide → ∀ j < 80, a ≠ 4 * (0x500 + j) ∧ a ≠ 4 * (0x500 + j) + 1) :
    t.byteAt a = s.byteAt a := by
  have hlt (q : List Sample) (j : Nat) (hj : j < (q.take 80).length) : j < 80 :=
    hj.trans_le (List.length_take_le 80 q)
  have hlow : (s.mem.writeFrame .out (s.inst.outFr.take 80)).read a = s.mem.read a :=
    Memory.read_writeFrame_other _ .out fun j hj => hout j (hlt _ j hj)
  obtain rfl := Host.Outcome.next.inj ((exec_fPopOut_enough h).symm.trans ht)
  refine State.byteAt_eq_of_read rfl ?_
  dsimp only
  by_cases hwide : s.inst.wide
  · rw [State.framesOut_wide hwide]
    exact (Memory.read_writeFrame_other _ .outH fun j hj => houtH hwide j (hlt _ j hj)).trans hlow
  · rw [State.framesOut_narrow hwide]
    exact hlow

/-- Settles O27: the step is refused exactly where a queue holds no frame; what is written to the two windows does not
overlap. In the statement Lean reads the byte address `a` as an element of `Fin 80`, which lies below every window; the
frame of all byte addresses is `exec_fPopOut_byteAt_other`. -/
theorem fPopOutResult : Obligations.FPopOutResult := by
  intro s
  refine ⟨fun h => ⟨_, exec_fPopOut_enough h, fun j => ?_, fun a _ _ => ?_, rfl⟩, exec_fPopOut_refused⟩
  · exact ⟨State.winRead_out_of_framesOut rfl h j, fun hwide => State.winRead_outH_of_framesOut rfl h hwide j⟩
  · have hbelow (base j : Nat) (hbase : 20 ≤ base) : a.val ≠ 4 * (base + j) ∧ a.val ≠ 4 * (base + j) + 1 := by omega
    exact exec_fPopOut_byteAt_other h (exec_fPopOut_enough h) (fun j _ => hbelow _ j (by decide))
      fun _ j _ => hbelow _ j (by decide)

end Sys2Proof.Machine
end

section
/-! PROOFS. The lifecycle commands and the start of PROCESS_FRAME, each with its whole result (O14 to O16). -/

namespace Sys2Proof.Machine

/-! ### Settled: CREATE and DESTROY -/

theorem failLife_faultEnds (c : FaultCode) (s : State) :
    s.FaultEnds (failLife c s) c .failed (Config.freeInst s.draws) (s.draws + 1) := ⟨rfl, .of_eq rfl rfl⟩

/-- A command that fails after its draw of resources takes one free value more. -/
theorem failLife_drawn_faultEnds (c : FaultCode) (s : State) :
    s.FaultEnds (failLife c s.drawn) c .failed (Config.freeInst (s.draws + 1)) (s.draws + 2) :=
  ⟨rfl, .of_eq rfl rfl⟩

theorem exec_create_of_off {s : State} (h : s.life = .off) :
    exec .create s = .next (createWith (Config.resOk s.draws) s.drawn) := congrArg Host.Outcome.next (if_pos h)

theorem exec_destroy_of_not_off {s : State} (h : s.life ≠ .off) :
    exec .destroy s = .next (complete (s.setLife .off).loseInst) := congrArg Host.Outcome.next (if_neg h)

/-- Settles O14: the draw decides between the two ends of CREATE; DESTROY draws no resource. -/
theorem createAndDestroyResults : Obligations.CreateAndDestroyResults := by
  refine ⟨fun s h => ⟨_, exec_create_of_off h, ?_⟩, fun s h => ⟨_, exec_destroy_of_not_off h, rfl, fun _ => rfl⟩⟩
  unfold createWith
  split
  · exact ⟨rfl, fun _ => rfl⟩
  · exact failLife_drawn_faultEnds .resource s

/-! ### Settled: INIT -/

theorem validRate_iff {rate : Nat} : validRate rate = true ↔ rate = 8000 ∨ rate = 16000 ∨ rate = 32000 := by
  simp [validRate, or_assoc]

theorem exec_init_of_exists {s : State} (h : s.life = .created ∨ s.life = .ready) (rate : Nat) :
    exec (.init rate) s = .next (initWith (Config.resOk s.draws) rate s) := congrArg Host.Outcome.next (if_pos h)

section
variable {rate : Nat} {s : State} (resOk : Bool)

theorem initWith_badRate (hr : validRate rate = false) : initWith resOk rate s = failLife .badRate s := by
  simp [initWith, hr]

theorem initWith_cfgUnsupported (hr : validRate rate = true) (hnlp : s.cfg.nlpEn = false) :
    initWith resOk rate s = failLife .cfgUnsupported s := by
  simp [initWith, hr, hnlp]

theorem initWith_tested (hr : validRate rate = true) (hnlp : s.cfg.nlpEn = true) :
    initWith resOk rate s = if resOk then complete ((s.drawn.setInst (Inst.init s.cfg rate)).setLife .ready)
      else failLife .resource s.drawn := by
  unfold initWith
  rw [hr, hnlp]
  cases resOk with
  | false => rfl
  | true => rfl

end

/-- Settles O15, by the tests in their order: the rate, the configuration, the draw. -/
theorem initResult : Obligations.InitResult := by
  intro s rate hlife
  refine ⟨_, exec_init_of_exists hlife rate, fun hbad => ?_, fun hrate hnlp => ?_, fun hrate hnlp => ?_⟩
  · rw [initWith_badRate _ (Bool.eq_false_iff.2 (mt validRate_iff.1 hbad))]
    exact failLife_faultEnds .badRate s
  · rw [initWith_cfgUnsupported _ (validRate_iff.2 hrate) hnlp]
    exact failLife_faultEnds .cfgUnsupported s
  · rw [initWith_tested _ (validRate_iff.2 hrate) hnlp]
    split
    · exact ⟨rfl, fun _ => rfl⟩
    · exact failLife_drawn_faultEnds .resource s

/-! ### Settled: the start of PROCESS_FRAME -/

section
variable {s : State} {hb : Bool} (d : Int) (hlife : s.life = .ready)
include hlife

theorem exec_processFrame_noHighBand (hwide : s.inst.wide) (hhb : hb = false) :
    exec (.processFrame hb d) s = .next (raise .nullHighband s) :=
  congrArg Host.Outcome.next ((if_neg (not_not.2 hlife)).trans (if_pos ⟨Inst.highBand_eq_true.2 hwide, hhb⟩))

theorem exec_processFrame_starts (h : ¬(s.inst.wide ∧ hb = false)) :
    exec (.processFrame hb d) s = .next { s with blk := { s.blk with d := d }, seq := 1 } :=
  congrArg Host.Outcome.next
    ((if_neg (not_not.2 hlife)).trans (if_neg fun ⟨hwide, hhb⟩ => h ⟨Inst.highBand_eq_true.1 hwide, hhb⟩))

end

/-- Settles O16: HB is looked at only at 32000 Hz. -/
theorem processFrameStarts : Obligations.ProcessFrameStarts := by
  intro s hb d hlife
  by_cases h : s.inst.wide ∧ hb = false
  · obtain ⟨hwide, hhb⟩ := h
    exact ⟨_, exec_processFrame_noHighBand d hlife hwide hhb, fun _ => raise_faultEnds _ s,
      fun hn => absurd ⟨hwide, hhb⟩ hn⟩
  · exact ⟨_, exec_processFrame_starts d hlife h, fun hy => absurd hy h, fun _ => ⟨rfl, fun _ => rfl⟩⟩

end Sys2Proof.Machine
end

section
/-! PROOFS. A whole PROCESS_FRAME: how each stage moves the fills of the queues, and how many steps are left from it
(O28). -/

namespace Sys2Proof

/-- The stages of the re-blocking frame interface (spec/44_frame_api.md R258 to R267), which move samples between the
queues and the blocks, or count them. -/
def Instr.isReblocking : Instr → Bool
  | .fEnqueue | .fBlockTest | .bPop | .bPush | .fStuff | .fPopOut => true
  | _ => false

namespace Machine

/-! ### The stages within a block -/

/-- The two filters agree in the rate and the queues. -/
def Inst.SameQueues (x y : Inst) : Prop :=
  y.sampFreq = x.sampFreq ∧ y.farFr = x.farFr ∧ y.nearFr = x.nearFr ∧ y.outFr = x.outFr ∧
    y.nearFrH = x.nearFrH ∧ y.outFrH = x.outFrH

theorem Inst.SameQueues.refl (x : Inst) : x.SameQueues x := ⟨rfl, rfl, rfl, rfl, rfl, rfl⟩

theorem Inst.measure_sameQueues (p : Params) (b : Blk) (x : Inst) : x.SameQueues (x.measure p b) := by
  obtain ⟨erl, aNlp, erle, n, h, -⟩ := Inst.measure_eq p b x
  rw [h]
  exact .refl x

/-- All that a stage other than those of re-blocking can do, as stage `n`: it leaves the queues and goes on to the next
stage, or ends the command with ERR_NUMERIC. -/
inductive InnerCase (s : State) (n : BitVec 5) : State → Prop
  | goesOn (x : Inst) (b : Blk) (draws : Nat) (hx : s.inst.SameQueues x) :
      InnerCase s n { s with inst := x, blk := b, seq := n + 1, draws := draws }
  | faults (x : Inst) : InnerCase s n (raise .numeric { s with inst := x })

theorem exec_inner_case {i : Instr} {n : BitVec 5} (hi : encode i = .stage n) (hn : n ≠ 0)
    (hinner : i.isReblocking = false) {s t : State} (h : exec i s = .next t) : InnerCase s n t := by
  cases i with
  | create | init | processFrame | setMetrics | getMetrics | destroy => cases hi
  | fEnqueue | fBlockTest | bPop | bPush | fStuff | fPopOut => cases hinner
  | idle => cases hi; exact absurd rfl hn
  | bNoise =>
    cases hi
    obtain ⟨_, _, _, _, -, rfl⟩ := execBNoise_next h
    exact .goesOn _ _ _ ⟨rfl, rfl, rfl, rfl, rfl, rfl⟩
  | nSynth =>
    cases hi
    obtain ⟨_, _, rfl | rfl⟩ := execNSynth_next h
    · exact .faults _
    · exact .goesOn _ _ _ ⟨rfl, rfl, rfl, rfl, rfl, rfl⟩
  | nHighband =>
    cases hi
    obtain rfl | ⟨_, rfl⟩ := execNHighband_next h
    · exact .faults s.inst
    · exact .goesOn _ _ _ ⟨rfl, rfl, rfl, rfl, rfl, rfl⟩
  | mUpdate =>
    cases hi
    obtain rfl := Host.Outcome.next.inj h
    refine .goesOn _ _ _ ?_
    split
    · exact Inst.measure_sameQueues _ _ _
    · exact .refl _
  | _ => cases hi; cases h; exact .goesOn _ _ _ ⟨rfl, rfl, rfl, rfl, rfl, rfl⟩

/-- Only stages of re-blocking refuse. -/
theorem exec_inner_next {i : Instr} (hinner : i.isReblocking = false) (s : State) : ∃ t, exec i s = .next t := by
  cases i with
  | fEnqueue | fBlockTest | bPop | bPush | fStuff | fPopOut => cases hinner
  | _ => exact ⟨_, rfl⟩

/-! ### The fills of the queues (spec/44_frame_api.md R268) -/

theorem Inst.fills_iff {x : Inst} {f o : Nat} : x.Fills f o ↔
    x.farFr.length = f ∧ x.nearFr.length = f ∧ x.outFr.length = o ∧
      (x.wide → x.nearFrH.length = f ∧ x.outFrH.length = o) := by
  unfold Inst.Fills
  rw [Inst.highBand_eq_true]
  rfl

theorem Inst.SameQueues.fills {x y : Inst} (h : x.SameQueues y) {f o : Nat} (hx : x.Fills f o) : y.Fills f o := by
  obtain ⟨hrate, hfar, hnear, hout, hnearH, houtH⟩ := h
  unfold Inst.Fills Inst.highBand at hx ⊢
  rw [hrate, hfar, hnear, hout, hnearH, houtH]
  exact hx

theorem Inst.Fills.nearFrH {x : Inst} {f o : Nat} (h : x.Fills f o) (hwide : x.wide) : x.nearFrH.length = f := by
  obtain ⟨-, -, -, hhigh⟩ := Inst.fills_iff.1 h
  exact (hhigh hwide).1

theorem Inst.Fills.outFrH {x : Inst} {f o : Nat} (h : x.Fills f o) (hwide : x.wide) : x.outFrH.length = o := by
  obtain ⟨-, -, -, hhigh⟩ := Inst.fills_iff.1 h
  exact (hhigh hwide).2

/-- Run with fills `f` and `o`, the stage goes on to stage `n` with fills `f'` and `o'`, and touches nothing but the
filter and the values between the stages. -/
def MovesFills (i : Instr) (f o : Nat) (n : BitVec 5) (f' o' : Nat) : Prop :=
  ∀ s : State, s.inst.Fills f o →
    ∃ x b, exec i s = .next { s with inst := x, blk := b, seq := n } ∧ x.Fills f' o'

section
variable {f o : Nat}

theorem fEnqueue_movesFills (hroom : f + 80 ≤ 144) : MovesFills .fEnqueue f o 4 (f + 80) o := by
  intro s h
  obtain ⟨hfar, hnear, hout, -⟩ := Inst.fills_iff.1 h
  have hfits : s.inst.RoomForFrame := ⟨hfar ▸ hroom, hnear ▸ hroom, fun hwide => h.nearFrH hwide ▸ hroom⟩
  refine ⟨_, s.blk, exec_fEnqueue_room hfits, Inst.fills_iff.2 ⟨?_, ?_, hout, fun (hwide : s.inst.wide) => ?_⟩⟩
  · simp [hfar]
  · simp [hnear, State.frameOf_length]
  · rw [if_pos hwide, List.length_append, h.nearFrH hwide, State.frameOf_length]
    exact ⟨rfl, h.outFrH hwide⟩

theorem fBlockTest_movesFills_block (hf : 64 ≤ f) : MovesFills .fBlockTest f o 5 f o := by
  intro s h
  obtain ⟨hfar, -⟩ := Inst.fills_iff.1 h
  refine ⟨s.inst, s.blk, ?_, h⟩
  rw [exec_fBlockTest, hfar, if_pos hf]

theorem fBlockTest_movesFills_last (hf : f < 64) : MovesFills .fBlockTest f o 30 f o := by
  intro s h
  obtain ⟨hfar, -⟩ := Inst.fills_iff.1 h
  refine ⟨s.inst, s.blk, ?_, h⟩
  rw [exec_fBlockTest, hfar, if_neg (Nat.not_le.2 hf)]

theorem bPop_movesFills : MovesFills .bPop (f + 64) o 6 f o := by
  intro s h
  obtain ⟨hfar, hnear, hout, -⟩ := Inst.fills_iff.1 h
  have hle : 64 ≤ f + 64 := Nat.le_add_left 64 f
  have hholds : s.inst.HoldsBlock := ⟨hfar ▸ hle, hnear ▸ hle, fun hwide => h.nearFrH hwide ▸ hle⟩
  refine ⟨_, _, exec_bPop_enough hholds, Inst.fills_iff.2 ⟨?_, ?_, hout, fun (hwide : s.inst.wide) => ?_⟩⟩
  · simp [hfar]
  · simp [hnear]
  · rw [if_pos hwide, List.length_drop, h.nearFrH hwide]
    exact ⟨rfl, h.outFrH hwide⟩

theorem bPush_movesFills (hroom : o + 64 ≤ 144) : MovesFills .bPush f o 4 f (o + 64) := by
  intro s h
  obtain ⟨hfar, hnear, hout, -⟩ := Inst.fills_iff.1 h
  have hfits : s.inst.RoomForBlock := ⟨hout ▸ hroom, fun hwide => h.outFrH hwide ▸ hroom⟩
  refine ⟨_, s.blk, exec_bPush_room hfits, Inst.fills_iff.2 ⟨hfar, hnear, ?_, fun (hwide : s.inst.wide) => ?_⟩⟩
  · simp [hout]
  · rw [if_pos hwide, List.length_append, h.outFrH hwide, Vector.length_toList]
    exact ⟨h.nearFrH hwide, rfl⟩

theorem fStuff_movesFills : MovesFills .fStuff f o 31 f (o + (80 - o)) := by
  intro s h
  obtain ⟨hfar, hnear, hout, -⟩ := Inst.fills_iff.1 h
  have hfits : s.inst.RoomForZeros := fun hwide hlt => by
    have houtH := h.outFrH hwide
    omega
  refine ⟨_, s.blk, exec_fStuff_room hfits, Inst.fills_iff.2 ⟨hfar, hnear, ?_, fun (hwide : s.inst.wide) => ?_⟩⟩
  · simp [hout, Nat.add_comm]
  · rw [if_pos hwide, List.length_append, List.length_replicate, h.outFrH hwide, hout]
    exact ⟨h.nearFrH hwide, Nat.add_comm _ _⟩

/-- F_POP_OUT takes a frame out of the output queues and ends the command. -/
theorem exec_fPopOut_fills {s : State} (h : s.inst.Fills f (o + 80)) :
    ∃ x m, exec .fPopOut s = .next { s with inst := x, mem := m, done := true, seq := 0 } ∧ x.Fills f o := by
  obtain ⟨hfar, hnear, hout, -⟩ := Inst.fills_iff.1 h
  have hle : 80 ≤ o + 80 := Nat.le_add_left 80 o
  have hholds : s.inst.HoldsFrame := ⟨hout ▸ hle, fun hwide => h.outFrH hwide ▸ hle⟩
  refine ⟨_, _, exec_fPopOut_enough hholds, Inst.fills_iff.2 ⟨hfar, hnear, ?_, fun (hwide : s.inst.wide) => ?_⟩⟩
  · simp [hout]
  · rw [if_pos hwide, List.length_drop, h.outFrH hwide]
    exact ⟨h.nearFrH hwide, rfl⟩

end

/-! ### Runs that come to an end -/

/-- Within `n` steps the machine comes from `s` to a state with the property. -/
def State.Reaches (s : State) (n : Nat) (P : State → Prop) : Prop :=
  ∃ m t, m ≤ n ∧ runSteps m s = .next t ∧ P t

theorem State.Reaches.here {s : State} {P : State → Prop} (h : P s) (n : Nat) : s.Reaches n P :=
  ⟨0, s, Nat.zero_le n, rfl, h⟩

theorem State.Reaches.of_step {s u : State} {n : Nat} {P : State → Prop} (hstep : step s = .next u)
    (h : u.Reaches n P) : s.Reaches (n + 1) P := by
  obtain ⟨m, t, hm, hrun, ht⟩ := h
  refine ⟨m + 1, t, Nat.succ_le_succ hm, ?_, ht⟩
  unfold runSteps
  rw [hstep]
  exact hrun

theorem State.Reaches.mono {s : State} {n k : Nat} {P : State → Prop} (h : s.Reaches n P) (hk : n ≤ k) :
    s.Reaches k P := by
  obtain ⟨m, t, hm, hrun, ht⟩ := h
  exact ⟨m, t, hm.trans hk, hrun, ht⟩

/-- The command started in `u` is at stage `n` in `s`: its queues hold `f` and `o` samples, and what it does not touch
is as it was. -/
structure State.Runs (u : State) (n : BitVec 5) (f o : Nat) (s : State) : Prop where
  seq : s.seq = n
  life : s.life = .ready
  hostQ : s.hostQ = u.hostQ
  cmd : s.cmd = u.cmd
  fault : s.fault = u.fault
  err : s.err = u.err
  fills : s.inst.Fills f o

/-- The command started in `u` has ended in `t`: done, with `f` and `o` samples in the queues, or with ERR_NUMERIC. -/
def State.FrameEnds (u : State) (f o : Nat) (t : State) : Prop :=
  t.seq = 0 ∧ t.life = .ready ∧ t.hostQ = u.hostQ ∧
    ((t.done = true ∧ t.fault = u.fault ∧ t.err = u.err ∧ t.inst.Fills f o) ∨
      (t.done = false ∧ t.fault = true ∧ (u.fault = false → t.err = errWord u.cmd .numeric)))

theorem State.Runs.raise_numeric {u s : State} {n : BitVec 5} {f o : Nat} (h : u.Runs n f o s) (x : Inst)
    (f' o' : Nat) : u.FrameEnds f' o' (raise .numeric { s with inst := x }) := by
  refine ⟨rfl, h.life, h.hostQ, .inr ⟨rfl, rfl, fun hfault => ?_⟩⟩
  rw [raise_err, if_neg (Bool.eq_false_iff.1 (h.fault.trans hfault)), h.cmd]

/-- From stage `n` with fills `f` and `o`, the command started in `u` ends within `k` steps: with ERR_NUMERIC, or done
with the fills `f'` and `o'`. -/
def State.EndsFrom (u : State) (n : BitVec 5) (f o k f' o' : Nat) : Prop :=
  ∀ s, u.Runs n f o s → s.Reaches k (u.FrameEnds f' o')

section
variable {u : State} (hu : u.noResetNext) {n : BitVec 5} {f o k f' o' : Nat}
include hu

/-- The host waits, so the step is the stage. -/
theorem State.Runs.step_eq {s : State} (h : u.Runs n f o s) (hn : n ≠ 0) : step s = exec (decodeStage n) s := by
  have hquiet : s.noResetNext := by
    unfold State.noResetNext
    rw [h.hostQ]
    exact hu
  rw [stepRunsStage s hquiet (.inl (h.seq ▸ hn)), h.seq]

theorem endsFrom_inner (hn : n ≠ 0) (hinner : (decodeStage n).isReblocking = false)
    (hnext : u.EndsFrom (n + 1) f o k f' o') : u.EndsFrom n f o (k + 1) f' o' := by
  intro s h
  obtain ⟨t, ht⟩ := exec_inner_next hinner s
  refine .of_step ((h.step_eq hu hn).trans ht) ?_
  cases exec_inner_case (encode_decodeStage n) hn hinner ht with
  | goesOn x b draws hx => exact hnext _ ⟨rfl, h.life, h.hostQ, h.cmd, h.fault, h.err, hx.fills h.fills⟩
  | faults x => exact .here (h.raise_numeric x f' o') k

/-- Stages 6 to 28, from B_LOAD to M_UPDATE, by induction on the number of stages left of them. -/
theorem endsFrom_block_stages (hpush : u.EndsFrom 29 f o k f' o') (j : Nat) :
    ∀ n : BitVec 5, 6 ≤ n.toNat → n.toNat + j = 29 → u.EndsFrom n f o (k + j) f' o' := by
  induction j with
  | zero =>
    intro n _ hn
    obtain rfl : n = 29 := BitVec.eq_of_toNat_eq hn
    exact hpush
  | succ j ih =>
    intro n hlow hn
    have hinner : ∀ m : BitVec 5, 6 ≤ m.toNat → m.toNat < 29 → (decodeStage m).isReblocking = false := by decide
    have hsucc : (n + 1).toNat = n.toNat + 1 := by bv_omega
    exact endsFrom_inner hu (by bv_omega) (hinner n hlow (by omega)) (ih (n + 1) (by omega) (by omega))

theorem endsFrom_movesFills {m : BitVec 5} {f₁ o₁ : Nat} (hn : n ≠ 0)
    (hmoves : MovesFills (decodeStage n) f o m f₁ o₁) (hnext : u.EndsFrom m f₁ o₁ k f' o') :
    u.EndsFrom n f o (k + 1) f' o' := by
  intro s h
  obtain ⟨x, b, hexec, hx⟩ := hmoves s h.fills
  exact .of_step ((h.step_eq hu hn).trans hexec) (hnext _ ⟨rfl, h.life, h.hostQ, h.cmd, h.fault, h.err, hx⟩)

theorem endsFrom_fPopOut : u.EndsFrom 31 f (o + 80) 1 f o := by
  intro s h
  obtain ⟨x, m, hexec, hx⟩ := exec_fPopOut_fills h.fills
  exact .of_step ((h.step_eq hu (by decide)).trans hexec)
    (.here ⟨rfl, h.life, h.hostQ, .inl ⟨rfl, h.fault, h.err, hx⟩⟩ 0)

/-! ### The frame, from its end to its start -/

/-- With no whole block left, the output is filled up and the frame leaves (stages 4, 30, 31). -/
theorem endsFrom_last_test (hf : f < 64) : u.EndsFrom 4 f o 3 f (o + (80 - o) - 80) := by
  have hpop : u.EndsFrom 31 f (o + (80 - o) - 80 + 80) 1 f (o + (80 - o) - 80) := endsFrom_fPopOut hu
  have hfull : o + (80 - o) - 80 + 80 = o + (80 - o) := by omega
  rw [hfull] at hpop
  have hstuff : u.EndsFrom 30 f o 2 f (o + (80 - o) - 80) :=
    endsFrom_movesFills hu (by decide) fStuff_movesFills hpop
  exact endsFrom_movesFills hu (by decide) (fBlockTest_movesFills_last hf) hstuff

/-- A block goes through 26 stages: the test, B_POP, those from B_LOAD to M_UPDATE, B_PUSH. -/
theorem endsFrom_block (hroom : o + 64 ≤ 144) (hnext : u.EndsFrom 4 f (o + 64) k f' o') :
    u.EndsFrom 4 (f + 64) o (k + 26) f' o' := by
  have hpush : u.EndsFrom 29 f o (k + 1) f' o' :=
    endsFrom_movesFills hu (by decide) (bPush_movesFills hroom) hnext
  have hload : u.EndsFrom 6 f o (k + 1 + 23) f' o' := endsFrom_block_stages hu hpush 23 6 (by decide) (by decide)
  have hpop : u.EndsFrom 5 (f + 64) o (k + 1 + 23 + 1) f' o' :=
    endsFrom_movesFills hu (by decide) bPop_movesFills hload
  exact endsFrom_movesFills hu (by decide) (fBlockTest_movesFills_block (Nat.le_add_left 64 f)) hpop

/-- The loop over the blocks, by induction on their number. -/
theorem endsFrom_blocks (hf : f < 64) (b : Nat) : ∀ o, o + 64 * b ≤ 144 →
    u.EndsFrom 4 (f + 64 * b) o (26 * b + 3) f (o + 64 * b + (80 - (o + 64 * b)) - 80) := by
  induction b with
  | zero => exact fun o _ => endsFrom_last_test hu hf
  | succ b ih =>
    intro o hroom
    have hnext := ih (o + 64) (by omega)
    have hpushed : o + 64 + 64 * b = o + 64 * (b + 1) := by omega
    rw [hpushed] at hnext
    exact endsFrom_block hu (by omega) hnext

/-- A whole frame, from its first stage: it is queued, taken block by block, and what the blocks leave of the output
is filled up. -/
theorem endsFrom_frame (hin : f + 80 ≤ 144) (hout : o + 64 * ((f + 80) / 64) ≤ 144) :
    u.EndsFrom 1 f o (26 * ((f + 80) / 64) + 6) (frameFills f o).1 (frameFills f o).2 := by
  have hloop := endsFrom_blocks hu (Nat.mod_lt (f + 80) (by decide : 64 > 0)) ((f + 80) / 64) o hout
  rw [Nat.mod_add_div] at hloop
  have henqueue : u.EndsFrom 3 f o (26 * ((f + 80) / 64) + 4) (frameFills f o).1 (frameFills f o).2 :=
    endsFrom_movesFills hu (by decide) (fEnqueue_movesFills hin) hloop
  have hfetch := endsFrom_inner hu (n := 2) (by decide) (by decide) henqueue
  exact endsFrom_inner hu (n := 1) (by decide) (by decide) hfetch

end

/-! ### Settled: a whole PROCESS_FRAME -/

/-- The queues have room for a frame started with any fills of R268's table, and the fills it leaves are in the
table. -/
theorem fillTable_fits : ∀ p ∈ fillTable, p.1 + 80 ≤ 144 ∧ p.2 + 64 * ((p.1 + 80) / 64) ≤ 144 ∧
    frameFills p.1 p.2 ∈ fillTable := by decide

/-- PROCESS_FRAME in READY, with its high band where there is one, comes to stage 1 with the queues as they are. -/
theorem exec_processFrame_runs {u : State} {hb : Bool} {f o : Nat} (d : Int) (hlife : u.life = .ready)
    (hhb : u.inst.wide → hb = true) (hfills : u.inst.Fills f o) :
    ∃ t, exec (.processFrame hb d) u = .next t ∧ u.Runs 1 f o t := by
  have hstarts : ¬(u.inst.wide ∧ hb = false) := fun ⟨hwide, hno⟩ =>
    Bool.noConfusion ((hhb hwide).symm.trans hno)
  exact ⟨_, exec_processFrame_starts d hlife hstarts, rfl, hlife, rfl, rfl, rfl, rfl, hfills⟩

/-- Settles O28: the write to CMD starts the stages, and from the first of them the frame ends; at most two of its
blocks are whole, so the steps are at most 1 + 3 + 2 * 26 + 3. -/
theorem frameFillCycle : Obligations.FrameFillCycle := by
  intro s f o hb d w q hlife hseq hq hreset hw hhb htable hfills
  obtain ⟨hin, hout, hnext⟩ := fillTable_fits (f, o) htable
  have hquiet : ({ s with hostQ := q, cmd := w, done := false } : State).noResetNext := hreset
  obtain ⟨v, hv, hruns⟩ := exec_processFrame_runs (u := { s with hostQ := q, cmd := w, done := false })
    d hlife hhb hfills
  have hreaches := State.Reaches.of_step ((step_write_cmd_legal hseq hq hw).trans hv)
    (endsFrom_frame hquiet hin hout v hruns)
  have hsteps : 26 * ((f + 80) / 64) + 6 + 1 ≤ 59 := by
    dsimp only at hin
    omega
  obtain ⟨n, t, hn, hrun, hseq', hlife', hq', hend⟩ := hreaches.mono hsteps
  refine ⟨n, t, hn, hrun, hseq', hlife', hq', hend.imp_left ?_⟩
  exact fun ⟨hdone, hfault, herr, hfills'⟩ => ⟨hdone, hfault, herr, hfills', hnext⟩

end Machine

end Sys2Proof
end

section
/-! PROOFS. The metrics: SET_METRICS, GET_METRICS and the stage M_UPDATE, each with its whole result (O17, O18, O52,
O53). -/

namespace Sys2Proof

/-- A pattern with all exponent bits set and a fraction is a NaN (spec/47_numerics_and_access.md R375). -/
theorem F32.isNaN_of_fraction (sign : BitVec 1) {fraction : BitVec 23} (h : fraction ≠ 0) :
    (F32.mk (sign ++ 0xFF#8 ++ fraction)).isNaN = true := by
  have hexp : (F32.mk (sign ++ 0xFF#8 ++ fraction)).expField = 255 := by
    rw [F32.expField, BitVec.extractLsb'_append_eq_of_le (Nat.le_refl 23), BitVec.extractLsb'_append_eq_right]
    rfl
  have hfrac : (F32.mk (sign ++ 0xFF#8 ++ fraction)).fracField ≠ 0 := by
    rw [F32.fracField, BitVec.extractLsb'_append_eq_right]
    exact fun hzero => h (BitVec.eq_of_toNat_eq hzero)
  simp [F32.isNaN, hexp, hfrac]

namespace Machine

/-! ### Settled: SET_METRICS -/

theorem exec_setMetrics_of_ready {s : State} (h : s.life = .ready) (enable : Bool) :
    exec (.setMetrics enable) s = .next (complete (s.setInst (s.inst.withMetrics s.cfg enable))) :=
  congrArg Host.Outcome.next (if_pos h)

/-- Settles O17: the command writes the filter's fields alone. -/
theorem setMetricsResult : Obligations.SetMetricsResult := by
  intro s e h
  have hends : complete (s.setInst (s.inst.withMetrics s.cfg e)) =
      { s with life := .ready, inst := s.inst.withMetrics s.cfg e, done := true, seq := 0 } := by
    rw [← h]
    rfl
  refine ⟨_, exec_setMetrics_of_ready h e, ⟨hends, fun _ => rfl⟩, ?_, ?_⟩
  · rintro rfl
    rfl
  · rintro rfl
    rfl

/-! ### Settled: GET_METRICS -/

/-- The exported pattern of a number is its own, and that of a NaN is a NaN's (spec/45_metrics.md R302). -/
theorem exportBits_exportsAs (draw i : Nat) (v : F32) : exportsAs (exportBits draw i v) v := by
  unfold exportsAs exportBits
  split
  · refine F32.isNaN_of_fraction _ ?_
    split
    · decide
    · assumption
  · rfl

/-- A word whose four bytes are stored reads back. -/
theorem State.wordAt_of_bytes {s : State} {a : Nat} {w : Word}
    (h : ∀ k < 4, s.mem.read (4 * a + k) = (wordBytes w)[k]?) : s.wordAt a = w := by
  have hbyte (k : Nat) (hk : k < 4) : s.byteAt (4 * a + k) = (wordBytes w)[k] := by
    rw [State.byteAt, h k hk, List.getElem?_eq_getElem hk, Option.getD_some]
  calc s.wordAt a
      = s.byteAt (4 * a + 3) ++ s.byteAt (4 * a + 2) ++ s.byteAt (4 * a + 1) ++ s.byteAt (4 * a + 0) := rfl
    _ = w.extractLsb' 24 8 ++ w.extractLsb' 16 8 ++ w.extractLsb' 8 8 ++ w.extractLsb' 0 8 := by
        rw [hbyte 3 (by decide), hbyte 2 (by decide), hbyte 1 (by decide), hbyte 0 (by decide)]
        rfl
    _ = w := word_eq_append_bytes w

/-- The memory after the twenty reported fields have been written to METRICS. -/
def State.metricsOut (s : State) : Memory :=
  s.mem.writeElems Win.metrics.base ((metricsWords s.draws s.inst).map wordBytes)

theorem exec_getMetrics_of_ready {s : State} (h : s.life = .ready) :
    exec .getMetrics s = .next (complete (s.setMem s.metricsOut).drawn) := congrArg Host.Outcome.next (if_pos h)

theorem exec_getMetrics_of_not_ready {s : State} (h : s.life ≠ .ready) :
    exec .getMetrics s = .next (raise .state s) := congrArg Host.Outcome.next (if_neg h)

theorem complete_setMem_drawn (s : State) (m : Memory) : complete (s.setMem m).drawn =
    { s with mem := (complete (s.setMem m).drawn).mem, draws := s.draws + 1, done := true, seq := 0 } := rfl

/-- Element `i` of METRICS holds a pattern for reported field `i`. -/
theorem State.wordAt_metricsOut {s t : State} (ht : t.mem = s.metricsOut) {i : Nat} {v : F32}
    (hv : s.inst.reported[i]? = some v) : t.wordAt (0x600 + i) = exportBits s.draws i v := by
  have helem : ((metricsWords s.draws s.inst).map wordBytes)[i]? = some (wordBytes (exportBits s.draws i v)) := by
    simp [metricsWords, hv]
  refine State.wordAt_of_bytes fun k hk => ?_
  rw [ht]
  refine Memory.read_writeElems_elem s.mem Win.metrics.base _ i k _ (fun e he => ?_) helem hk
  obtain ⟨w, -, rfl⟩ := List.mem_map.1 he
  exact (wordBytes_length w).le

theorem State.exportsAs_metricsOut {s t : State} (ht : t.mem = s.metricsOut) {i : Nat} {v : F32}
    (hv : s.inst.reported[i]? = some v) : exportsAs (t.wordAt (0x600 + i)) v := by
  rw [State.wordAt_metricsOut ht hv]
  exact exportBits_exportsAs _ _ _

/-- The five fields of record `r` stand together, in the order of the window (spec/20_memory.md R74). -/
theorem Inst.reported_record (x : Inst) (r : Fin 4) :
    let record := [x.erl, x.erle, x.aNlp, x.rerl][r]
    x.reported[5 * r.val + 0]? = some record.instant ∧ x.reported[5 * r.val + 1]? = some record.average ∧
      x.reported[5 * r.val + 2]? = some record.min ∧ x.reported[5 * r.val + 3]? = some record.max ∧
      x.reported[5 * r.val + 4]? = some record.himean := by
  match r with
  | 0 | 1 | 2 | 3 => exact ⟨rfl, rfl, rfl, rfl, rfl⟩

/-- Settles O18: field `k` of record `r` is element `5 * r + k` of the window (spec/20_memory.md R74). -/
theorem getMetricsResult : Obligations.GetMetricsResult := by
  intro s h
  refine ⟨_, exec_getMetrics_of_ready h, fun r => ?_, fun a ha => ?_, complete_setMem_drawn s _⟩
  · have hmem : (complete (s.setMem s.metricsOut).drawn).mem = s.metricsOut := by
      rw [complete_mem, State.drawn_mem, State.setMem_mem]
    obtain ⟨hinstant, haverage, hmin, hmax, hhimean⟩ := s.inst.reported_record r
    simp only [Nat.add_assoc]
    exact ⟨State.exportsAs_metricsOut hmem hinstant, State.exportsAs_metricsOut hmem haverage,
      State.exportsAs_metricsOut hmem hmin, State.exportsAs_metricsOut hmem hmax,
      State.exportsAs_metricsOut hmem hhimean⟩
  · exact execGetMetrics_byteAt_outside (exec_getMetrics_of_ready h) (by omega)

/-! ### The level trackers and the records as the spec writes them -/

/-- The sum of squares of R284, element by element. -/
theorem sumSquares_eq_foldl_range (start : F32) (b : Block16) : sumSquares start b = (List.range 64).foldl
    (fun acc k => acc.add (F32.ofInt ((b.toList.getD k 0#16).toInt * (b.toList.getD k 0#16).toInt))) start := by
  have hlist : (List.range 64).map (b.toList.getD · 0#16) = b.toList := by
    refine List.ext_getElem (by simp) fun k hk _ => ?_
    have hlt : k < 64 := by simpa using hk
    simp [hlt]
  rw [sumSquares, ← hlist, List.foldl_map, hlist]

/-- UpdateLevel is that of R284 in each of its cases: the frame level goes on, is complete, or completes an
average level. -/
theorem Level.update_updatesTo (l : Level) (b : Block16) : l.UpdatesTo (l.update b).1 b := by
  unfold Level.UpdatesTo
  rw [← sumSquares_eq_foldl_range]
  by_cases hframe : l.sfrcounter + 1 = 4
  · rw [if_neg (not_not.2 hframe)]
    by_cases havg : l.frcounter + 1 = 50
    · rw [Level.update_of_average b hframe havg, if_pos havg]
      exact ⟨rfl, rfl, rfl, rfl, rfl, rfl, rfl⟩
    · rw [Level.update_of_frame b hframe havg, if_neg havg]
      exact ⟨rfl, rfl, rfl, rfl, rfl, rfl, rfl⟩
  · rw [Level.update_of_open b hframe, if_pos hframe]
    rfl

/-- A tracker is fresh after a block that completes its average level. -/
theorem Level.update_fresh_iff (l : Level) (b : Block16) :
    (l.update b).2 = true ↔ l.sfrcounter + 1 = 4 ∧ l.frcounter + 1 = 50 := by
  by_cases hframe : l.sfrcounter + 1 = 4
  · by_cases havg : l.frcounter + 1 = 50
    · rw [Level.update_of_average b hframe havg]
      exact iff_of_true rfl ⟨hframe, havg⟩
    · rw [Level.update_of_frame b hframe havg]
      exact iff_of_false Bool.false_ne_true fun h => havg h.2
  · rw [Level.update_of_open b hframe]
    exact iff_of_false Bool.false_ne_true fun h => hframe h.1

/-- The update of a record is that of R298: the upper mean takes a value above the new average. -/
theorem Stat.update_updatesTo (r : Stat) (v : F32) : r.UpdatesTo (r.update v) v := by
  refine ⟨rfl, rfl, rfl, rfl, rfl, rfl, ?_⟩
  by_cases hhigh : v.gt (r.update v).average = true
  · rw [if_pos hhigh]
    have hsum : (r.update v).hisum = r.hisum.add v := if_pos hhigh
    rw [hsum]
    exact ⟨if_pos hhigh, rfl, if_pos hhigh⟩
  · rw [if_neg hhigh]
    exact ⟨if_neg hhigh, if_neg hhigh, if_neg hhigh⟩

/-! ### Settled: M_UPDATE -/

theorem exec_mUpdate_off {s : State} (h : s.inst.metricsMode = false) :
    exec .mUpdate s = .next { s with seq := 29 } := by
  simp [exec, execMUpdate, h]

theorem exec_mUpdate_on {s : State} (h : s.inst.metricsMode = true) :
    exec .mUpdate s = .next { s with inst := s.inst.measure s.cfg s.blk, seq := 29 } := by
  simp [exec, execMUpdate, h]

/-- A block's metrics change the metrics alone. -/
theorem Inst.measure_sameAudio (p : Params) (b : Blk) (x : Inst) :
    x.SameAudio (x.measure p b) ∧ (x.measure p b).metricsMode = x.metricsMode := by
  obtain ⟨erl, aNlp, erle, n, h, -⟩ := Inst.measure_eq p b x
  rw [h]
  exact ⟨rfl, rfl⟩

/-- Settles O52: each tracker takes its own signal of the block. -/
theorem mUpdateTrackers : Obligations.MUpdateTrackers := by
  intro s
  by_cases hmode : s.inst.metricsMode = true
  · obtain ⟨haudio, hkeeps⟩ := Inst.measure_sameAudio s.cfg s.blk s.inst
    refine ⟨_, exec_mUpdate_on hmode, fun hoff => absurd (hmode.symm.trans hoff) (by decide), fun _ => ?_,
      haudio, hkeeps, rfl, fun _ => rfl⟩
    obtain ⟨erl, aNlp, erle, n, hmeasure, -⟩ := Inst.measure_eq s.cfg s.blk s.inst
    rw [hmeasure]
    exact ⟨Level.update_updatesTo _ _, Level.update_updatesTo _ _, Level.update_updatesTo _ _,
      Level.update_updatesTo _ _⟩
  · exact ⟨_, exec_mUpdate_off (Bool.eq_false_iff.2 hmode), fun _ => rfl, fun hon => absurd hon hmode, rfl, rfl, rfl,
      fun _ => rfl⟩

/-- The echo counter after a block (R290). -/
theorem Inst.trackLevels_stateCounter (b : Blk) (x : Inst) :
    (x.trackLevels b).stateCounter = x.stateCounter + (if x.echoState then 1 else 0) :=
  (apply_ite (x.stateCounter + ·) (x.echoState = true) 1 0).symm

/-- The tracked levels and the echo counter pass the test of a window (R292). -/
abbrev Inst.PassesTest (p : Params) (x : Inst) : Prop := 100 < x.stateCounter ∧ farActive p x.farlevel = true

section
variable {p : Params} {b : Blk} {x : Inst}

theorem Inst.updateStats_of_passing (h : x.PassesTest p) : x.updateStats p = { x with
    erl := x.erl.update (erlValue x), aNlp := x.aNlp.update (aNlpValue x)
    erle := x.erle.update (erleValue p x) } := if_pos h

theorem Inst.updateStats_of_failing (h : ¬x.PassesTest p) : x.updateStats p = x := if_neg h

/-- Inside a window only the trackers and the echo counter move. -/
theorem Inst.measure_of_open (h : ¬(x.farlevel.sfrcounter + 1 = 4 ∧ x.farlevel.frcounter + 1 = 50)) :
    x.measure p b = x.trackLevels b := by
  rw [Inst.measure_eq_ite, if_neg (mt (Level.update_fresh_iff _ _).1 h)]

/-- A window that ends and passes its test enters ERL, A_NLP and ERLE. -/
theorem Inst.measure_of_passing (h : x.farlevel.sfrcounter + 1 = 4 ∧ x.farlevel.frcounter + 1 = 50)
    (htest : (x.trackLevels b).PassesTest p) :
    x.measure p b = { x.trackLevels b with
      erl := x.erl.update (erlValue (x.trackLevels b))
      aNlp := x.aNlp.update (aNlpValue (x.trackLevels b))
      erle := x.erle.update (erleValue p (x.trackLevels b))
      stateCounter := 0 } := by
  rw [Inst.measure_eq_ite, if_pos ((Level.update_fresh_iff _ _).2 h), Inst.updateStats_of_passing htest]
  rfl

/-- A window that ends and fails its test is forgotten. -/
theorem Inst.measure_of_failing (h : x.farlevel.sfrcounter + 1 = 4 ∧ x.farlevel.frcounter + 1 = 50)
    (htest : ¬(x.trackLevels b).PassesTest p) :
    x.measure p b = { x.trackLevels b with stateCounter := 0 } := by
  rw [Inst.measure_eq_ite, if_pos ((Level.update_fresh_iff _ _).2 h), Inst.updateStats_of_failing htest]

end

/-- Settles O53: the window goes on, or ends with its test passed, or failed. -/
theorem mUpdateStatistics : Obligations.MUpdateStatistics := by
  intro s hmode
  refine ⟨_, exec_mUpdate_on hmode, ?_⟩
  by_cases hfresh : s.inst.farlevel.sfrcounter + 1 = 4 ∧ s.inst.farlevel.frcounter + 1 = 50
  · by_cases htest : (s.inst.trackLevels s.blk).PassesTest s.cfg
    · have hpasses := htest
      rw [Inst.PassesTest, Inst.trackLevels_stateCounter] at hpasses
      rw [Inst.measure_of_passing hfresh htest]
      exact ⟨(if_pos hfresh).symm,
        fun _ => ⟨Stat.update_updatesTo _ _, Stat.update_updatesTo _ _, Stat.update_updatesTo _ _⟩,
        fun hnot => absurd ⟨hfresh, hpasses⟩ hnot, rfl⟩
    · have hfails := htest
      rw [Inst.PassesTest, Inst.trackLevels_stateCounter] at hfails
      rw [Inst.measure_of_failing hfresh htest]
      exact ⟨(if_pos hfresh).symm, fun hpasses => absurd hpasses.2 hfails, fun _ => ⟨rfl, rfl, rfl⟩, rfl⟩
  · rw [Inst.measure_of_open hfresh]
    exact ⟨(Inst.trackLevels_stateCounter _ _).trans (if_neg hfresh).symm,
      fun hpasses => absurd hpasses.1 hfresh, fun _ => ⟨rfl, rfl, rfl⟩, rfl⟩

end Machine

end Sys2Proof
end

section
/-! PROOFS. The metrics never feed back into the audio path (O58). -/

namespace Sys2Proof.Machine

/-! ### Filters that agree in all but the metrics -/

/-- The filter with the metrics of another. -/
def Inst.withMetricsOf (x y : Inst) : Inst :=
  { x with
    metricsMode := y.metricsMode
    farlevel := y.farlevel, nearlevel := y.nearlevel
    linoutlevel := y.linoutlevel, nlpoutlevel := y.nlpoutlevel
    erl := y.erl, erle := y.erle, aNlp := y.aNlp, rerl := y.rerl
    stateCounter := y.stateCounter }

theorem Inst.sameAudio_iff {x y : Inst} : x.SameAudio y ↔ ∃ z, y = x.withMetricsOf z := by
  refine ⟨fun h => ⟨y, h⟩, ?_⟩
  rintro ⟨z, rfl⟩
  rfl

theorem Inst.SameAudio.symm {x y : Inst} (h : x.SameAudio y) : y.SameAudio x := by
  obtain ⟨z, rfl⟩ := Inst.sameAudio_iff.1 h
  rfl

theorem Inst.SameAudio.trans {x y z : Inst} (hxy : x.SameAudio y) (hyz : y.SameAudio z) : x.SameAudio z := by
  obtain ⟨y', rfl⟩ := Inst.sameAudio_iff.1 hxy
  exact hyz

/-- Two changes of the metrics alone leave filters that agree in all but the metrics. -/
theorem Inst.SameAudio.of_changed {x y x' y' : Inst} (h : x.SameAudio y) (hx : x.SameAudio x') (hy : y.SameAudio y') :
    x'.SameAudio y' := hx.symm.trans (h.trans hy)

theorem Inst.withMetrics_sameAudio (p : Params) (enable : Bool) (x : Inst) : x.SameAudio (x.withMetrics p enable) := by
  cases enable with
  | false => rfl
  | true => rfl

theorem Inst.SameAudio.withFarBuf {x y : Inst} (h : x.SameAudio y) (buf : List Sample) (pos : Nat) :
    ({ x with farBuf := buf, farBufWritePos := pos } : Inst).SameAudio
      { y with farBuf := buf, farBufWritePos := pos } := by
  obtain ⟨z, rfl⟩ := Inst.sameAudio_iff.1 h
  rfl

/-! ### States that agree in all but the metrics -/

/-- The state with other metrics and other window contents. -/
def State.withMetricsOf (s : State) (y : Inst) (m : Memory) : State :=
  { s with inst := s.inst.withMetricsOf y, mem := m }

section
variable {s t : State}

theorem State.SameAudioBytes.exists_eq (h : s.SameAudioBytes t) : ∃ y m, t = s.withMetricsOf y m := by
  obtain ⟨haudio, hrest, -⟩ := h
  exact ⟨t.inst, t.mem, hrest.trans (congrArg (fun x => { s with inst := x, mem := t.mem }) haudio)⟩

theorem State.SameAudioBytes.byteAt (h : s.SameAudioBytes t) {a : Nat} (ha : a < 4 * 0x600 ∨ 4 * 0x614 ≤ a) :
    t.byteAt a = s.byteAt a := h.2.2 a ha

/-- The two states hold the same samples in every window of samples. -/
theorem State.SameAudioBytes.frameOf (h : s.SameAudioBytes t) {w : Win} (hw : w ≠ .metrics) :
    t.frameOf w = s.frameOf w := by
  have hread (j : Fin 80) : t.winRead w j = s.winRead w j := by
    have hbelow : w.base + j < 0x600 := by
      cases w with
      | metrics => exact absurd rfl hw
      | farIn | nearIn | nearHIn | out | outH => simp only [Win.base]; omega
    rw [State.winRead, State.winRead, h.byteAt (by omega), h.byteAt (by omega)]
  exact congrArg List.ofFn (funext hread)

theorem State.SameAudioBytes.raise (h : s.SameAudioBytes t) (c : FaultCode) :
    (raise c s).SameAudioBytes (raise c t) := by
  obtain ⟨y, m, rfl⟩ := h.exists_eq
  exact ⟨rfl, rfl, fun _ => h.byteAt⟩

theorem State.SameAudioBytes.failLife (h : s.SameAudioBytes t) (c : FaultCode) :
    (failLife c s).SameAudioBytes (failLife c t) := by
  obtain ⟨y, m, rfl⟩ := h.exists_eq
  exact ⟨rfl, rfl, fun _ => h.byteAt⟩

theorem State.SameAudioBytes.drawn (h : s.SameAudioBytes t) : s.drawn.SameAudioBytes t.drawn := by
  obtain ⟨y, m, rfl⟩ := h.exists_eq
  exact ⟨rfl, rfl, fun _ => h.byteAt⟩

theorem State.SameAudioBytes.exported (h : s.SameAudioBytes t) {m m' : Memory}
    (hm : ∀ a, a < 4 * 0x600 ∨ 4 * 0x614 ≤ a →
      (complete (t.setMem m').drawn).byteAt a = (complete (s.setMem m).drawn).byteAt a) :
    (complete (s.setMem m).drawn).SameAudioBytes (complete (t.setMem m').drawn) := by
  obtain ⟨y, n, rfl⟩ := h.exists_eq
  exact ⟨rfl, rfl, hm⟩

theorem State.SameAudioBytes.ite {c : Prop} [Decidable c] {s' t' : State} (h : s.SameAudioBytes t)
    (h' : s'.SameAudioBytes t') : (if c then s else s').SameAudioBytes (if c then t else t') := by
  split
  · exact h
  · exact h'

/-! ### Outcomes that are alike -/

theorem sameOutcome_next (h : s.SameAudioBytes t) : sameOutcome State.SameAudioBytes (.next s) (.next t) :=
  .inl ⟨s, t, rfl, rfl, h⟩

/-- Two operations that go on under one condition, and are refused alike without it. -/
theorem sameOutcome_of_guard {a b : Host.Outcome State Fault Refusal} {r : Refusal} {guard guard' : Prop}
    (ha : guard → a = .next s) (ha' : ¬guard → a = .refused r) (hb : guard' → b = .next t)
    (hb' : ¬guard' → b = .refused r) (hguard : guard ↔ guard') (h : s.SameAudioBytes t) :
    sameOutcome State.SameAudioBytes a b := by
  by_cases hg : guard
  · rw [ha hg, hb (hguard.1 hg)]
    exact sameOutcome_next h
  · exact .inr (.inr ⟨r, ha' hg, hb' (mt hguard.2 hg)⟩)

end

/-! ### Frames written to the windows -/

/-- A write of elements overwrites a byte or leaves it, whatever the memory. -/
theorem Memory.read_writeElems_cases (base : Nat) (es : List (List Byte)) (a : Nat) :
    (∃ v, ∀ m : Memory, (m.writeElems base es).read a = some v) ∨
      ∀ m : Memory, (m.writeElems base es).read a = m.read a := by
  induction es generalizing base with
  | nil => exact .inr fun _ => rfl
  | cons e es ih =>
    obtain ⟨v, hwritten⟩ | hleft := ih (base + 1)
    · exact .inl ⟨v, fun m => hwritten _⟩
    · by_cases hin : 4 * base ≤ a ∧ a < 4 * base + e.length
      · refine .inl ⟨e[a - 4 * base], fun m => ?_⟩
        rw [Memory.writeElems, hleft, Memory.read_writeBytes, if_pos hin, List.getElem?_eq_getElem]
      · refine .inr fun m => ?_
        rw [Memory.writeElems, hleft, Memory.read_writeBytes, if_neg hin]

/-- Memories that read alike at an address still do after the same frame has been written to both. -/
theorem State.byteAt_writeFrame_congr {s : State} {m m' : Memory} {a : Nat}
    (h : (s.setMem m').byteAt a = (s.setMem m).byteAt a) (w : Win) (vs : List Sample) :
    (s.setMem (m'.writeFrame w vs)).byteAt a = (s.setMem (m.writeFrame w vs)).byteAt a := by
  unfold State.byteAt Memory.writeFrame at *
  simp only [State.setMem_mem, State.setMem_memEpoch] at *
  obtain ⟨v, hwritten⟩ | hleft := Memory.read_writeElems_cases w.base (vs.map sampleBytes) a
  · rw [hwritten, hwritten]
  · rw [hleft, hleft, h]

/-! ### The operations that read a window or the metrics -/

section
variable {s t : State} (h : s.SameAudioBytes t)
include h

theorem createWith_sameAudio (resOk : Bool) : (createWith resOk s).SameAudioBytes (createWith resOk t) := by
  obtain ⟨y, m, rfl⟩ := h.exists_eq
  exact .ite ⟨rfl, rfl, fun _ => h.byteAt⟩ (h.failLife .resource)

theorem initWith_sameAudio (resOk : Bool) (rate : Nat) :
    (initWith resOk rate s).SameAudioBytes (initWith resOk rate t) := by
  obtain ⟨y, m, rfl⟩ := h.exists_eq
  exact .ite (h.failLife .badRate) <| .ite (h.failLife .cfgUnsupported) <|
    .ite (h.drawn.failLife .resource) ⟨rfl, rfl, fun _ => h.byteAt⟩

theorem endSynth_sameAudio (o tail : Half) : (endSynth o tail s).SameAudioBytes (endSynth o tail t) := by
  obtain ⟨y, m, rfl⟩ := h.exists_eq
  exact .ite ⟨rfl, rfl, fun _ => h.byteAt⟩ ⟨rfl, rfl, fun _ => h.byteAt⟩

theorem getMetrics_sameOutcome :
    sameOutcome State.SameAudioBytes (exec .getMetrics s) (exec .getMetrics t) := by
  obtain ⟨y, m, rfl⟩ := h.exists_eq
  by_cases hlife : s.life = .ready
  · have hs := exec_getMetrics_of_ready hlife
    have ht := exec_getMetrics_of_ready (s := s.withMetricsOf y m) hlife
    rw [hs, ht]
    refine sameOutcome_next (h.exported fun a ha => ?_)
    rw [execGetMetrics_byteAt_outside hs (by omega), execGetMetrics_byteAt_outside ht (by omega), h.byteAt ha]
  · rw [exec_getMetrics_of_not_ready hlife, exec_getMetrics_of_not_ready (s := s.withMetricsOf y m) hlife]
    exact sameOutcome_next (h.raise .state)

theorem fEnqueue_sameOutcome : sameOutcome State.SameAudioBytes (exec .fEnqueue s) (exec .fEnqueue t) := by
  have hnear := h.frameOf (w := .nearIn) (by decide)
  have hnearH := h.frameOf (w := .nearHIn) (by decide)
  obtain ⟨y, m, rfl⟩ := h.exists_eq
  refine sameOutcome_of_guard exec_fEnqueue_room exec_fEnqueue_refused exec_fEnqueue_room exec_fEnqueue_refused
    Iff.rfl ?_
  rw [hnear, hnearH]
  exact ⟨rfl, rfl, fun _ => h.byteAt⟩

theorem fPopOut_sameOutcome : sameOutcome State.SameAudioBytes (exec .fPopOut s) (exec .fPopOut t) := by
  obtain ⟨y, m, rfl⟩ := h.exists_eq
  refine sameOutcome_of_guard exec_fPopOut_enough exec_fPopOut_refused exec_fPopOut_enough exec_fPopOut_refused
    Iff.rfl ⟨rfl, rfl, fun a ha => ?_⟩
  have hbyte : (s.setMem m).byteAt a = (s.setMem s.mem).byteAt a := h.byteAt ha
  show (s.setMem (s.withMetricsOf y m).framesOut).byteAt a = (s.setMem s.framesOut).byteAt a
  by_cases hwide : s.inst.wide
  · rw [State.framesOut_wide hwide, State.framesOut_wide (s := s.withMetricsOf y m) hwide]
    exact State.byteAt_writeFrame_congr (State.byteAt_writeFrame_congr hbyte _ _) _ _
  · rw [State.framesOut_narrow hwide, State.framesOut_narrow (s := s.withMetricsOf y m) hwide]
    exact State.byteAt_writeFrame_congr hbyte _ _

theorem fBufferFar_sameOutcome : sameOutcome State.SameAudioBytes (exec .fBufferFar s) (exec .fBufferFar t) := by
  have hfar : t.farFrame = s.farFrame := by
    rw [State.farFrame, State.farFrame, State.map_winRead_range, State.map_winRead_range, h.frameOf (by decide)]
  obtain ⟨y, m, rfl⟩ := h.exists_eq
  rw [exec_fBufferFar, exec_fBufferFar, hfar]
  exact sameOutcome_next ⟨h.1.withFarBuf _ _, rfl, fun _ => h.byteAt⟩

theorem mUpdate_sameOutcome : sameOutcome State.SameAudioBytes (exec .mUpdate s) (exec .mUpdate t) := by
  have hchanged (u : State) : u.inst.SameAudio (if u.inst.metricsMode then u.inst.measure u.cfg u.blk else u.inst) := by
    split
    · exact (Inst.measure_sameAudio _ _ _).1
    · rfl
  have haudio := h.1.of_changed (hchanged s) (hchanged t)
  obtain ⟨y, m, rfl⟩ := h.exists_eq
  exact sameOutcome_next ⟨haudio, rfl, fun _ => h.byteAt⟩

/-- Every operation treats the two states alike. -/
theorem exec_sameOutcome (i : Instr) : sameOutcome State.SameAudioBytes (exec i s) (exec i t) := by
  obtain ⟨y, m, rfl⟩ := h.exists_eq
  have hbytes (a : Nat) := h.byteAt (a := a)
  cases i with
  | create => exact sameOutcome_next (.ite (createWith_sameAudio h.drawn _) (h.raise .state))
  | init rate => exact sameOutcome_next (.ite (initWith_sameAudio h _ rate) (h.raise .state))
  | processFrame hb d =>
    exact sameOutcome_next (.ite (h.raise .state) (.ite (h.raise .nullHighband) ⟨rfl, rfl, hbytes⟩))
  | setMetrics enable =>
    have haudio := h.1.of_changed (s.inst.withMetrics_sameAudio s.cfg enable)
      ((s.withMetricsOf y m).inst.withMetrics_sameAudio s.cfg enable)
    exact sameOutcome_next (.ite ⟨haudio, rfl, hbytes⟩ (h.raise .state))
  | getMetrics => exact getMetrics_sameOutcome h
  | destroy => exact sameOutcome_next (.ite (h.raise .state) ⟨rfl, rfl, hbytes⟩)
  | fBufferFar => exact fBufferFar_sameOutcome h
  | fEnqueue => exact fEnqueue_sameOutcome h
  | bPop =>
    exact sameOutcome_of_guard exec_bPop_enough exec_bPop_refused exec_bPop_enough exec_bPop_refused Iff.rfl
      ⟨rfl, rfl, hbytes⟩
  | bNoise =>
    rw [exec_bNoise, exec_bNoise]
    exact sameOutcome_next ⟨rfl, rfl, hbytes⟩
  | nSynth =>
    rw [exec_nSynth, exec_nSynth]
    exact sameOutcome_next (endSynth_sameAudio h _ _)
  | nHighband =>
    exact sameOutcome_next (.ite (.ite (h.raise .numeric) ⟨rfl, rfl, hbytes⟩) ⟨rfl, rfl, hbytes⟩)
  | mUpdate => exact mUpdate_sameOutcome h
  | bPush =>
    exact sameOutcome_of_guard exec_bPush_room exec_bPush_refused exec_bPush_room exec_bPush_refused Iff.rfl
      ⟨rfl, rfl, hbytes⟩
  | fStuff =>
    exact sameOutcome_of_guard exec_fStuff_room exec_fStuff_refused exec_fStuff_room exec_fStuff_refused Iff.rfl
      ⟨rfl, rfl, hbytes⟩
  | fPopOut => exact fPopOut_sameOutcome h
  | _ => exact sameOutcome_next ⟨rfl, rfl, hbytes⟩

end

/-! ### Settled: the metrics never feed back -/

/-- Settles O58: the metrics are read by the metrics alone, and GET_METRICS writes no other window. -/
theorem metricsNeverFeedBack : Obligations.MetricsNeverFeedBack := by
  refine ⟨fun i s t h => exec_sameOutcome h i, fun s t h a ha => ?_, fun s e hlife => ?_⟩
  · rw [s.hostWord_sample_address (by omega), t.hostWord_sample_address (by omega), h.byteAt (by omega),
      h.byteAt (by omega)]
  · exact ⟨_, exec_setMetrics_of_ready hlife e, s.inst.withMetrics_sameAudio s.cfg e, rfl, fun _ _ => rfl⟩

end Sys2Proof.Machine
end

section
/-! PROOFS. The lifecycle table and the fault mechanism of spec/60_exceptions.md (O11, O12). -/

namespace Sys2Proof

/-- The cells of the lifecycle table that are no transition (spec/60_exceptions.md R314). -/
def Instr.IllegalIn (i : Instr) (l : Machine.Life) : Prop :=
  (i = .create ∧ l ≠ .off) ∨ (i = .destroy ∧ l = .off) ∨
    ((∃ rate, i = .init rate) ∧ (l = .off ∨ l = .failed)) ∨
    (((∃ hb d, i = .processFrame hb d) ∨ (∃ e, i = .setMetrics e) ∨ i = .getMetrics) ∧ l ≠ .ready)

namespace Machine

/-! ### The lifecycle state that a legal command leads to -/

theorem createWith_life (resOk : Bool) (s : State) :
    (createWith resOk s).life = .created ∨ (createWith resOk s).life = .failed := by
  unfold createWith
  split
  · exact .inl rfl
  · exact .inr rfl

/-- The rate, the configuration and the resources can each fail (spec/44_frame_api.md R252). -/
theorem initWith_life (resOk : Bool) (rate : Nat) (s : State) :
    (initWith resOk rate s).life = .ready ∨ (initWith resOk rate s).life = .failed := by
  unfold initWith
  split
  · exact .inr rfl
  · split
    · exact .inr rfl
    · split
      · exact .inr rfl
      · exact .inl rfl

/-- At 32000 Hz a PROCESS_FRAME without the high band ends at once; any other starts the stages (R257). -/
theorem exec_processFrame_life {s : State} (h : s.life = .ready) (hb : Bool) (d : Int) :
    ∃ t, exec (.processFrame hb d) s = .next t ∧ t.life = .ready ∧ (t.seq = 1 ∨ (s.inst.wide ∧ hb = false)) := by
  by_cases hnull : s.inst.wide ∧ hb = false
  · obtain ⟨hwide, hhb⟩ := hnull
    exact ⟨_, exec_processFrame_noHighBand d h hwide hhb, h, .inr ⟨hwide, hhb⟩⟩
  · exact ⟨_, exec_processFrame_starts d h hnull, h, .inl rfl⟩

/-! ### Commands that are illegal in a lifecycle state -/

section
variable {s : State}

theorem exec_create_of_not_off (h : s.life ≠ .off) : exec .create s = .next (raise .state s) :=
  congrArg Host.Outcome.next (if_neg h)

theorem exec_destroy_of_off (h : s.life = .off) : exec .destroy s = .next (raise .state s) :=
  congrArg Host.Outcome.next (if_pos h)

theorem exec_init_of_not_exists (h : s.life = .off ∨ s.life = .failed) (rate : Nat) :
    exec (.init rate) s = .next (raise .state s) := by
  have hnot : ¬(s.life = .created ∨ s.life = .ready) := by
    rcases h with h | h <;> simp [h]
  exact congrArg Host.Outcome.next (if_neg hnot)

theorem exec_processFrame_of_not_ready (h : s.life ≠ .ready) (hb : Bool) (d : Int) :
    exec (.processFrame hb d) s = .next (raise .state s) := congrArg Host.Outcome.next (if_pos h)

theorem exec_setMetrics_of_not_ready (h : s.life ≠ .ready) (enable : Bool) :
    exec (.setMetrics enable) s = .next (raise .state s) := congrArg Host.Outcome.next (if_neg h)

/-- An illegal command does nothing but raise ERR_STATE. -/
theorem exec_of_illegalIn {i : Instr} (h : i.IllegalIn s.life) : exec i s = .next (raise .state s) := by
  obtain ⟨rfl, hlife⟩ | ⟨rfl, hlife⟩ | ⟨⟨rate, rfl⟩, hlife⟩ | ⟨⟨hb, d, rfl⟩ | ⟨e, rfl⟩ | rfl, hlife⟩ := h
  · exact exec_create_of_not_off hlife
  · exact exec_destroy_of_off hlife
  · exact exec_init_of_not_exists hlife rate
  · exact exec_processFrame_of_not_ready hlife hb d
  · exact exec_setMetrics_of_not_ready hlife e
  · exact exec_getMetrics_of_not_ready hlife

end

/-! ### Settled: the lifecycle table -/

/-- Settles O12, by the rows of R314's table: the legal cells command by command, the illegal ones together. -/
theorem lifecycleTable : Obligations.LifecycleTable := by
  intro s
  refine ⟨fun hoff => ?_, fun rate hexists => ?_, fun hready => ⟨?_, fun e => ?_, ?_⟩, fun hon => ?_,
    fun i hillegal => ?_⟩
  · exact ⟨_, exec_create_of_off hoff, createWith_life _ _⟩
  · exact ⟨_, exec_init_of_exists hexists rate, initWith_life _ _ _⟩
  · exact exec_processFrame_life hready
  · exact ⟨_, exec_setMetrics_of_ready hready e, hready, rfl⟩
  · exact ⟨_, exec_getMetrics_of_ready hready, by rw [complete_life, State.drawn_life, State.setMem_life, hready],
      complete_done _⟩
  · exact ⟨_, exec_destroy_of_not_off hon, rfl, rfl⟩
  · exact ⟨_, exec_of_illegalIn hillegal, raise_faultEnds .state s⟩

/-! ### Settled: what raising a fault records -/

/-- ERR as a number: the command word with its low byte replaced by the code (spec/10_state.md R25). -/
theorem errWord_toNat (w : Word) (c : FaultCode) :
    (errWord w c).toNat = w.toNat / 256 * 256 + c.bits.toNat := by
  have hw := w.isLt
  rw [errWord, append_toNat, BitVec.extractLsb'_toNat, Nat.shiftRight_eq_div_pow]
  omega

/-- Settles O11: ERR is written only where no fault stands. -/
theorem faultMechanism : Obligations.FaultMechanism := by
  intro s c
  refine ⟨raise_fault s c, raise_done s c, raise_seq s c, fun hfault => ?_, fun hfault => ?_, rfl⟩
  · rw [raise_err, if_pos hfault]
  · rw [raise_err, if_neg (Bool.eq_false_iff.1 hfault), errWord_toNat]
    cases c <;> rfl

end Machine

end Sys2Proof
end

section
/-! PROOFS. The reset input, and what holds right after reset, of spec/70_reset_and_hazards.md (O6, O55). -/

namespace Sys2Proof.Machine

/-! ### The reset input -/

section
variable {s : State} {n : Nat} {simd : Bool} {q : List HostMove}

/-- A reset input that is not yet due comes a step nearer, and the stage that SEQ names runs. -/
theorem fetch_reset_waits (hq : s.hostQ = .reset (n + 1) simd :: q) :
    fetch s = .run (decodeStage s.seq) { s with hostQ := .reset n simd :: q } := by
  unfold fetch
  rw [hq]

/-- A reset input that is due is taken, whatever SEQ names (R340). -/
theorem fetch_reset_due (hq : s.hostQ = .reset 0 simd :: q) :
    fetch s = .done (hardwareReset simd { s with hostQ := q }) := by
  unfold fetch
  rw [hq]

theorem step_reset_waits (hq : s.hostQ = .reset (n + 1) simd :: q) :
    step s = exec (decodeStage s.seq) { s with hostQ := .reset n simd :: q } := by
  unfold step
  rw [fetch_reset_waits hq]

theorem step_reset_due (hq : s.hostQ = .reset 0 simd :: q) :
    step s = .next (hardwareReset simd { s with hostQ := q }) := step_of_done (fetch_reset_due hq)

end

/-- STATUS shows the metrics mode and the kernel of a filter that exists only, so at LIFE OFF the free fields do not
reach it (spec/10_state.md R24). -/
theorem State.statusWord_of_off {s : State} (hlife : s.life = .off) (hfault : s.fault = false)
    (hdone : s.done = false) (hseq : s.seq = 0) : s.statusWord = 0 := by
  apply BitVec.eq_of_toNat_eq
  rw [State.statusWord_toNat hseq]
  simp [hlife, hfault, hdone, Life.bits]

theorem hardwareReset_statusWord (simd : Bool) (s : State) : (hardwareReset simd s).statusWord = 0 :=
  State.statusWord_of_off rfl rfl rfl rfl

/-! ### Settled: the reset input -/

/-- Settles O6: the fetch looks for a reset input before it looks at SEQ, and a due one leaves `hardwareReset`. -/
theorem resetInput : Obligations.ResetInput := fun _ _ simd _ =>
  ⟨step_reset_waits, fun hq =>
    ⟨_, step_reset_due hq, rfl, hardwareReset_statusWord simd _, rfl, rfl, rfl, rfl⟩⟩

/-! ### Settled: the invariants right after reset -/

/-- No filter exists and no command runs, nothing is written and no fault stands. -/
theorem State.reset_inv : State.reset.Inv :=
  ⟨reset_mem_wf, nofun, nofun, fun h => absurd rfl h, fun _ => rfl⟩

/-- A block without a filter has no cursors to align. -/
theorem State.aligned_of_not_exists {s : State} (h : s.life.exists = false) : s.Aligned :=
  fun hexists => absurd hexists (Bool.eq_false_iff.1 h)

theorem State.powersInv_of_not_exists {s : State} (h : s.life.exists = false) : s.PowersInv :=
  fun _ hexists => absurd hexists (Bool.eq_false_iff.1 h)

/-- Settles O55: LIFE is OFF right after reset, so no filter exists for the invariants to speak of. -/
theorem invariantsAtReset : Obligations.InvariantsAtReset :=
  ⟨State.reset_inv, State.aligned_of_not_exists rfl, State.powersInv_of_not_exists rfl⟩

end Sys2Proof.Machine
end
